-- ==== Sys2Proof/Word.lean ====
section
/-!
DEFINITION. The words of IRFE: a byte of the frame, the frame itself, and the 16-bit command word
(00_scope.md R6, R8; 10_state.md R11; 30_encoding.md R47).
-/

namespace Sys2Proof

/-- A byte: 8 bits, bit 0 the least significant (R8). -/
abbrev Byte := BitVec 8

/-- The command word `w[15:0]` (R47). -/
abbrev CmdWord := BitVec 16

/-- The frame `F[0]` .. `F[26]`: "an ordered sequence of 27 bytes (216 bits)" (R11). -/
abbrev Frame := Vector Byte 27

end Sys2Proof
end

