-- ==== Sys2Proof/Syntax.lean ====
section
/-!
DEFINITION. The abstract command set of 30_encoding.md R46: one constructor per row of spec/opcode_table.json.
Integer operands are natural numbers, as the source's calls take them; which of them a command word can present
is Sys2Proof/WellFormed.lean.
-/

namespace Sys2Proof

/-- The fan/stream modes, "closed tagged variant {AUTO, POWERFULL, QUIET}" (R18, R50). -/
inductive FanMode where
  | auto
  | powerfull
  | quiet
deriving DecidableEq, Repr

/-- The five commands (R46). -/
inductive Instr where
  /-- `SET_POWER on` (R48, R78). -/
  | setPower (on : Bool)
  /-- `SET_TEMP value, half` (R49, R79). -/
  | setTemp (value : Nat) (half : Bool)
  /-- `SET_FAN mode` (R50, R80). -/
  | setFan (mode : FanMode)
  /-- `SEND` (R51, R91, R99). -/
  | send
  /-- `GET_BIT byteIndex, bitIndex` (R52, R69). -/
  | getBit (byteIndex bitIndex : Nat)
deriving DecidableEq, Repr

end Sys2Proof
end

