-- ==== Sys2Proof/WellFormed.lean ====
section
/-!
DEFINITION. Which commands a 16-bit command word can present: every integer operand fits its field
(30_encoding.md R46, R49, R52; U8: what does not fit is refused at the boundary, never truncated).
-/

namespace Sys2Proof

/-- The operands fit their fields: `value` 8 bits, `byteIndex` 5 bits, `bitIndex` 4 bits (R46). -/
def Instr.wellFormed : Instr → Bool
  | .setPower _ => true
  | .setTemp value _ => decide (value < 256)
  | .setFan _ => true
  | .send => true
  | .getBit byteIndex bitIndex => decide (byteIndex < 32) && decide (bitIndex < 16)

end Sys2Proof
end

