-- ==== Sys2Proof/Decode.lean ====
section
/-!
DEFINITION. The decoder of 30_encoding.md R63, total on all 65536 words, rejecting by name, and the encoder of R61,
written from the field tables of R48 to R52.
-/

namespace Sys2Proof

/-- Why a word is illegal (R54). -/
inductive Illegal where
  /-- `op` is not in `0x1..0x5`. -/
  | opcode
  /-- A reserved operand bit is set. -/
  | reservedBit
  /-- SET_FAN with `mode = 0b11`. -/
  | fanMode
deriving DecidableEq, Repr

/-- `w[hi:lo]` as an unsigned integer (R8, R53: no operand is sign-extended, scaled or split). -/
def field (w : CmdWord) (hi lo : Nat) : Nat := (w.toNat / 2 ^ lo) % 2 ^ (hi + 1 - lo)

/-- The mode field of SET_FAN (R50). -/
def fanModeOf : Nat → Option FanMode
  | 0 => some .auto
  | 1 => some .powerfull
  | 2 => some .quiet
  | _ => none

/-- The number of a mode: `mode[0]` goes to `F[21][0]`, `mode[1]` to `F[21][5]` (R50, R59). -/
def fanModeNumber : FanMode → Nat
  | .auto => 0
  | .powerfull => 1
  | .quiet => 2

/-- `decode(w)` of R63: a command, or ILLEGAL with the reason. -/
def decode (w : CmdWord) : Except Illegal Instr :=
  match field w 15 12 with
  | 1 => if field w 11 1 = 0 then .ok (.setPower (field w 0 0 == 1)) else .error .reservedBit
  | 2 => if field w 11 9 = 0 then .ok (.setTemp (field w 7 0) (field w 8 8 == 1)) else .error .reservedBit
  | 3 =>
    if field w 11 2 = 0 then
      match fanModeOf (field w 1 0) with
      | some mode => .ok (.setFan mode)
      | none => .error .fanMode
    else .error .reservedBit
  | 4 => if field w 11 0 = 0 then .ok .send else .error .reservedBit
  | 5 => if field w 11 9 = 0 then .ok (.getBit (field w 4 0) (field w 8 5)) else .error .reservedBit
  | _ => .error .opcode

/-- The number of a command's word (the last column of R61); it is a word of 16 bits for a well-formed command. -/
def encodeNumber : Instr → Nat
  | .setPower on => 0x1000 + on.toNat
  | .setTemp value half => 0x2000 + 0x100 * half.toNat + value
  | .setFan mode => 0x3000 + fanModeNumber mode
  | .send => 0x4000
  | .getBit byteIndex bitIndex => 0x5000 + 32 * bitIndex + byteIndex

/-- The word of a well-formed command (R61); a command that no word presents has none (U8: never truncated). -/
def encode (i : Instr) : Option CmdWord :=
  if i.wellFormed then some (BitVec.ofNat 16 (encodeNumber i)) else none

/-- "match" of the command's row of spec/opcode_table.json (R48 to R52). -/
def rowMatch : Instr → CmdWord
  | .setPower _ => 0x1000
  | .setTemp _ _ => 0x2000
  | .setFan _ => 0x3000
  | .send => 0x4000
  | .getBit _ _ => 0x5000

/-- "mask" of the command's row of spec/opcode_table.json (R48 to R52). -/
def rowMask : Instr → CmdWord
  | .setPower _ => 0xFFFE
  | .setTemp _ _ => 0xFE00
  | .setFan _ => 0xFFFC
  | .send => 0xFFFF
  | .getBit _ _ => 0xFE00

/-- What the decoder reads from an instruction whose low `nbits` bits are those of `w` and whose other bits are 0,
numbered as spec/opcode_table.json numbers them; a command is one 16-bit word (R55), so more than 16 bits are none. -/
def decodeTableWord (nbits w : Nat) : Option Instr :=
  if w % 2 ^ nbits < 65536 then
    match decode (BitVec.ofNat 16 (w % 2 ^ nbits)) with
    | .ok i => some i
    | .error _ => none
  else none

end Sys2Proof
end

