-- ==== Sys2Proof/Machine/Protocol.lean ====
section
/-!
DEFINITION. The Protocol Constants fixed by the source (00_scope.md R6): field positions, ranges and the seven durations
"that MUST be reproduced for hardware compatibility", in microseconds.
-/

namespace Sys2Proof.Machine

/-- The last byte of the header subframe (R6: `HDR_LAST`). -/
def hdrLast : Fin 27 := 7
/-- The first byte of the body subframe (R6: `BODY_FIRST`). -/
def bodyFirst : Fin 27 := 8
/-- The last byte of the body subframe (R6: `BODY_LAST`). -/
def bodyLast : Fin 27 := 26
/-- The first byte the checksum covers (R6: `SUM_FIRST`). -/
def sumFirst : Nat := 8
/-- The number of bytes the checksum covers, `SUM_FIRST..SUM_LAST` = 8..25 (R6). -/
def sumCount : Nat := 18
/-- `CSUM_IDX` (R6, R19). -/
def csumIdx : Fin 27 := 26
/-- `POWER_BYTE` (R6, R15). -/
def powerByte : Fin 27 := 13
/-- `POWER_BIT` (R6, R15). -/
def powerBit : Fin 8 := 0
/-- `TEMP_BYTE` (R6, R16); `HALF_BYTE` is the same byte (R17). -/
def tempByte : Fin 27 := 14
/-- `TEMP_LO`: the lowest of the five temperature bits (R6, R16). -/
def tempLo : Fin 8 := 1
/-- `HALF_BIT` (R6, R17). -/
def halfBit : Fin 8 := 0
/-- `FAN_BYTE` (R6, R18). -/
def fanByte : Fin 27 := 21
/-- `FAN_POWERFULL_BIT` (R6, R18). -/
def powerfullBit : Fin 8 := 0
/-- `FAN_QUIET_BIT` (R6, R18). -/
def quietBit : Fin 8 := 5
/-- `TEMP_MIN` (R6). -/
def tempMin : Nat := 16
/-- `TEMP_MAX` (R6). -/
def tempMax : Nat := 30
/-- `T_START_MARK` (R6, R88). -/
def tStartMark : Nat := 3500
/-- `T_START_SPACE` (R6, R88). -/
def tStartSpace : Nat := 1700
/-- `T_BIT_MARK` (R6, R88). -/
def tBitMark : Nat := 430
/-- `T_SPACE_0` (R6, R88). -/
def tSpace0 : Nat := 440
/-- `T_SPACE_1` (R6, R88). -/
def tSpace1 : Nat := 1300
/-- `T_STOP_MARK`, "(same as bit-mark)" (R6, R88). -/
def tStopMark : Nat := 430
/-- `T_STOP_SPACE` (R6, R88). -/
def tStopSpace : Nat := 10000

/-- The space that carries a data bit: space-0 for 0, space-1 for 1 (R60, R88). -/
def bitSpace (b : Bool) : Nat := if b then tSpace1 else tSpace0

end Sys2Proof.Machine
end

