-- ==== Sys2Proof/Machine/Operands.lean ====
section
/-!
DEFINITION. The operand forms: the bounds check of a bit address (40_bit_access.md R65), the range check and the stored
half flag of SET_TEMP (42_frame_mutators.md R79), and the wire bits of a fan mode (30_encoding.md R59).
-/

namespace Sys2Proof.Machine

/-- `inRange(k, i)`: byte index 0..26 and bit index 0..7 (R65). -/
abbrev inRange (k i : Nat) : Prop := k ≤ 26 ∧ i ≤ 7

/-- SET_TEMP accepts 16..30, bounds included, compared as unbounded integers (R74, R79). -/
abbrev tempAccepted (value : Nat) : Prop := tempMin ≤ value ∧ value ≤ tempMax

/-- The half flag an accepted SET_TEMP stores: forced to 0 at 30 (R79). -/
def storedHalf (value : Nat) (half : Bool) : Bool := if value = tempMax then false else half

/-- The POWERFULL wire bit, `F[21][0]`, of a mode (R59). -/
def fanPowerfull : FanMode → Bool
  | .auto => false
  | .powerfull => true
  | .quiet => false

/-- The QUIET wire bit, `F[21][5]`, of a mode (R59). -/
def fanQuiet : FanMode → Bool
  | .auto => false
  | .powerfull => false
  | .quiet => true

end Sys2Proof.Machine
end

