-- ==== Sys2Proof/Config.lean ====
section
/-!
DEFINITION. What the spec leaves to the configuration: the template's 27 bytes, and the free values.
Each is opaque: nothing can be proved of the value it has (00_scope.md R7).
-/

namespace Sys2Proof

/-- `TEMPLATE[0..26]`: "a fixed binary constant" that the source does not print (R7, R13; log entry 1).
DESIGN CHOICE (the model's), safe: nothing is known of the bytes. -/
opaque Config.template : Frame

/-- `GETBIT_OOR`: what an out-of-range `getBit` returns, drawn anew at each call, the n-th draw of the run
(R66, U1; log entry 5). Safe: any value. -/
opaque Config.getbitOor : Nat → Bool

/-- `rsp_bit` in a tick that accepts no GET_BIT, the n-th draw of the run: meaningless, any value
(R96, U6; log entry 6). Safe: any value. -/
opaque Config.rspIdle : Nat → Bool

/-- `CARRIER_HZ`, nominal, only if a carrier is used; outside the block and read by no rule (R6, R95). -/
def Config.carrierHz : Nat := 38000

/-- `TICK`: the duration of one step, in microseconds (R7, D10). -/
def Config.tickUs : Nat := 1

end Sys2Proof
end

