-- ==== Sys2Proof/Machine/State.lean ====
section
/-!
DEFINITION. The state of IRFE as plain data: the frame and the sequencer position (43_pulse_transmitter.md R97), the
read-only template, the output bit `rsp_bit`, and the model's own fields (the host's moves, the counter of free values).
-/

namespace Sys2Proof.Machine

/-- `ph`, the phase of the pulse sequencer (R21). -/
inductive Phase where
  | idle
  | startMark
  | startSpace
  | bitMark
  | bitSpace
  | stopMark
  | stopSpace
deriving DecidableEq, Repr

/-- The reasons to stop with a fault: there are none. "A model gives the block no fault outcome: every step ... yields
a next state" (60_exceptions.md R105, R109). -/
inductive Fault where
deriving DecidableEq, Repr

/-- The reasons to refuse an instruction. -/
inductive Refusal where
  /-- Raised by an arm of exec whose instruction has no meaning yet; every instruction of this model has one, so no arm
  raises it. Safe: it stops where the hardware goes on. -/
  | notModelled (mnemonic : String)
deriving DecidableEq, Repr

/-- The state (R10, R11, R21, R96, R97). -/
structure State where
  /-- `F[0]` .. `F[26]` (R11): the register file and the only memory. -/
  frame : Frame
  /-- `TEMPLATE[0]` .. `TEMPLATE[26]`: hardwired, read-only, never written (R13, R23; log entry 1). -/
  template : Frame
  /-- The phase (R21). -/
  ph : Phase
  /-- The index of the byte being sent, 0..26 (R21). -/
  bi : Fin 27
  /-- The index of the bit being sent within that byte, 0..7 (R21). -/
  bt : Fin 8
  /-- The ticks the current interval still has to last, the current one included (R21, R100, R115). -/
  cnt : Nat
  /-- `rsp_bit` in the tick just taken: the result of the GET_BIT it accepted, else meaningless (R69, R96). -/
  rspBit : Bool
  /-- The model's own: the level of `rst` in this tick (the head) and the following ones; past the end 0
  (R96, R98; log entry 3). -/
  rstIn : List Bool
  /-- The model's own: what the host offers on `cmd_valid` and `cmd`, now (the head) and next; `none` is a tick with
  `cmd_valid = 0`, and so is the end of the list (R96, R98, R116; log entry 3). -/
  cmdIn : List (Option CmdWord)
  /-- The model's own: how many free values have been drawn (log entries 5 and 6). -/
  draws : Nat
deriving DecidableEq, Repr

/-- The state right after reset (R28): the frame is the template, the sequencer is idle. `rsp_bit` is a free value and
the host has offered nothing (log entries 3 and 6). -/
def State.reset : State where
  frame := Config.template
  template := Config.template
  ph := .idle
  bi := 0
  bt := 0
  cnt := 0
  rspBit := Config.rspIdle 0
  rstIn := []
  cmdIn := []
  draws := 1

end Sys2Proof.Machine
end

