-- ==== Sys2Proof/Machine/Ops.lean ====
section
/-!
DEFINITION. The named operations over the frame and the state: the bit accesses (40_bit_access.md), the checksum
(41_checksum.md), the register updates and the reset (70_reset_and_hazards.md R120). The block takes no exception and has
no return from one (60_exceptions.md R112, R113), so there is no such operation; reset is the one shared entry.
-/

namespace Sys2Proof.Machine

/-- `F[k][i]` at an address in range (R8). -/
def frameBit (f : Frame) (k : Fin 27) (i : Fin 8) : Bool := f[k].getLsbD i

/-- `getBit(k, i)` in range; `none` where the spec gives no value, `GETBIT_OOR` (R66). -/
def getBit (f : Frame) (k i : Nat) : Option Bool :=
  if h : inRange k i then some (frameBit f ⟨k, by omega⟩ ⟨i, by omega⟩) else none

/-- `setBit(k, i)`: `F[k] <- F[k] or (1 << i)` in range, else a no-op (R67). -/
def setBit (f : Frame) (k i : Nat) : Frame :=
  if h : inRange k i then f.set k (f[k] ||| (1#8 <<< i)) else f

/-- `clearBit(k, i)`: `F[k] <- F[k] and not (1 << i)` in range, else a no-op (R68). -/
def clearBit (f : Frame) (k i : Nat) : Frame :=
  if h : inRange k i then f.set k (f[k] &&& ~~~(1#8 <<< i)) else f

/-- `if b = 1 then setBit(k, i) else clearBit(k, i)` (R79). -/
def writeBit (f : Frame) (k i : Nat) (b : Bool) : Frame :=
  if b then setBit f k i else clearBit f k i

/-- `sum(F[8..25])`, unbounded (R73, R74). -/
def bodySum (f : Frame) : Nat := (((f.toList.drop sumFirst).take sumCount).map BitVec.toNat).sum

/-- `checksum(F) = sum(F[8..25]) mod 256` (R73). -/
def checksum (f : Frame) : Byte := BitVec.ofNat 8 (bodySum f)

/-- `updateChecksum`: `F[26] <- checksum(F)` (R75). -/
def updateChecksum (f : Frame) : Frame := f.set csumIdx (checksum f)

/-- Write the frame, nothing else. -/
def State.withFrame (s : State) (f : Frame) : State := { s with frame := f }

/-- Write the sequencer position, nothing else: the "pc" of this block (R8, R21). -/
def State.withSeq (s : State) (ph : Phase) (bi : Fin 27) (bt : Fin 8) (cnt : Nat) : State :=
  { s with ph := ph, bi := bi, bt := bt, cnt := cnt }

/-- Drive `rsp_bit` (R96). -/
def State.withRsp (s : State) (b : Bool) : State := { s with rspBit := b }

/-- Take one free value: the counter moves on (log entries 5 and 6). -/
def State.drawn (s : State) : State := { s with draws := s.draws + 1 }

/-- The reset of a tick with `rst = 1`: the frame from the template, the sequencer to `IDLE` (R28, R120, R121). -/
def State.loadReset (s : State) : State := (s.withFrame s.template).withSeq .idle 0 0 0

end Sys2Proof.Machine
end

