-- ==== Sys2Proof/Machine/BitAccess.lean ====
section
/-!
DEFINITION. The command GET_BIT (40_bit_access.md R69): drive `rsp_bit`, change neither frame nor sequencer.
-/

namespace Sys2Proof.Machine

/-- GET_BIT: `rsp_bit <- getBit(byteIndex, bitIndex)`; out of range the bit is a free value, drawn anew at each call
(R66, R69, R107; log entry 5). -/
def execGetBit (byteIndex bitIndex : Nat) (s : State) : Host.Outcome State Fault Refusal :=
  .next
    (match getBit s.frame byteIndex bitIndex with
     | some b => s.withRsp b
     | none => (s.withRsp (Config.getbitOor s.draws)).drawn)

end Sys2Proof.Machine
end

