-- ==== Sys2Proof/Machine/Mutators.lean ====
section
/-!
DEFINITION. The frame mutators SET_POWER, SET_TEMP, SET_FAN (42_frame_mutators.md): the frame transition of each, then its
meaning. Each is one atomic transition that ends with `updateChecksum` (R77) and touches nothing but the frame.
-/

namespace Sys2Proof.Machine

/-- SET_POWER on the frame; power off also forces fan mode AUTO (R78). -/
def powerFrame (on : Bool) (f : Frame) : Frame :=
  updateChecksum
    (if on then setBit f powerByte powerBit
     else clearBit (clearBit (clearBit f powerByte powerBit) fanByte powerfullBit) fanByte quietBit)

/-- `value[4:0] -> F[14][5:1]`, bit by bit (R79). -/
def writeTemp (f : Frame) (value : Nat) : Frame :=
  [0, 1, 2, 3, 4].foldl (fun g j => writeBit g tempByte (tempLo + j) (value.testBit j)) f

/-- SET_TEMP on the frame; a value outside 16..30 writes nothing (R79, R106). -/
def tempFrame (value : Nat) (half : Bool) (f : Frame) : Frame :=
  if tempAccepted value then
    updateChecksum (writeBit (writeTemp f value) tempByte halfBit (storedHalf value half))
  else f

/-- SET_FAN on the frame: both mode bits cleared, then the requested mode's bit set (R80). -/
def fanFrame (mode : FanMode) (f : Frame) : Frame :=
  let g := clearBit (clearBit f fanByte powerfullBit) fanByte quietBit
  let h := if fanPowerfull mode then setBit g fanByte powerfullBit else g
  updateChecksum (if fanQuiet mode then setBit h fanByte quietBit else h)

/-- What every mutator has in common: one transition of the frame and of nothing else (R36, R77). -/
def mutate (t : Frame → Frame) (s : State) : Host.Outcome State Fault Refusal :=
  .next (s.withFrame (t s.frame))

/-- SET_POWER (R78). -/
def execSetPower (on : Bool) (s : State) : Host.Outcome State Fault Refusal :=
  mutate (powerFrame on) s

/-- SET_TEMP (R79). -/
def execSetTemp (value : Nat) (half : Bool) (s : State) : Host.Outcome State Fault Refusal :=
  mutate (tempFrame value half) s

/-- SET_FAN (R80). -/
def execSetFan (mode : FanMode) (s : State) : Host.Outcome State Fault Refusal :=
  mutate (fanFrame mode) s

end Sys2Proof.Machine
end

