-- ==== Sys2Proof/Machine/Transmit.lean ====
section
/-!
DEFINITION. The pulse sequencer: SEND (43_pulse_transmitter.md R91, R99) and the busy tick (R100).
-/

namespace Sys2Proof.Machine

/-- SEND: load the first interval; the frame is not written (R91, R99). -/
def execSend (s : State) : Host.Outcome State Fault Refusal :=
  .next (s.withSeq .startMark 0 0 tStartMark)

/-- The end of an interval: load the next one (the `cnt = 1` branch of R100). The rule is not used in `IDLE`, where the
state stays. -/
def nextInterval (s : State) : State :=
  match s.ph with
  | .idle => s
  | .startMark => s.withSeq .startSpace s.bi s.bt tStartSpace
  | .startSpace => s.withSeq .bitMark s.bi s.bt tBitMark
  | .bitMark => s.withSeq .bitSpace s.bi s.bt (bitSpace (frameBit s.frame s.bi s.bt))
  | .bitSpace =>
    if s.bt < 7 then s.withSeq .bitMark s.bi (s.bt + 1) tBitMark
    else if s.bi ≠ hdrLast ∧ s.bi ≠ bodyLast then s.withSeq .bitMark (s.bi + 1) 0 tBitMark
    else s.withSeq .stopMark s.bi 0 tStopMark
  | .stopMark => s.withSeq .stopSpace s.bi s.bt tStopSpace
  | .stopSpace =>
    if s.bi = hdrLast then s.withSeq .startMark bodyFirst 0 tStartMark
    else s.withSeq .idle 0 0 0

/-- The busy tick (R100): stay in the interval, or go to the next one. -/
def seqTick (s : State) : State :=
  if 1 < s.cnt then s.withSeq s.ph s.bi s.bt (s.cnt - 1) else nextInterval s

end Sys2Proof.Machine
end

