-- ==== Sys2Proof/Machine/Dispatch.lean ====
section
/-! DEFINITION. One arm per command of 30_encoding.md R46: the meaning of an ACCEPTED command (the case split of R98). -/

namespace Sys2Proof.Machine

def exec (i : Instr) (s : State) : Host.Outcome State Fault Refusal :=
  match i with
  | .setPower on => Sys2Proof.Machine.execSetPower on s
  | .setTemp value half => Sys2Proof.Machine.execSetTemp value half s
  | .setFan mode => Sys2Proof.Machine.execSetFan mode s
  | .send => Sys2Proof.Machine.execSend s
  | .getBit byteIndex bitIndex => Sys2Proof.Machine.execGetBit byteIndex bitIndex s

end Sys2Proof.Machine
end

