-- ==== Sys2Proof/Machine/Flags.lean ====
section
/-!
DEFINITION. The flags and the outputs that are functions of the state (10_state.md R22; 43_pulse_transmitter.md R101;
42_frame_mutators.md R84) and the field reads they rest on (40_bit_access.md R72).
-/

namespace Sys2Proof.Machine

/-- `busy = (ph != IDLE)` (R22, R101). -/
def busy (s : State) : Bool := s.ph != .idle

/-- `ir_out` of a phase: 1 in a mark (R22, R101). -/
def markPhase : Phase → Bool
  | .idle => false
  | .startMark => true
  | .startSpace => false
  | .bitMark => true
  | .bitSpace => false
  | .stopMark => true
  | .stopSpace => false

/-- `ir_out`, the envelope: 1 = mark, 0 = space or idle (R20, R22, R94, R101). -/
def irOut (s : State) : Bool := markPhase s.ph

/-- `power(F) = F[13][0]` (R15, R72). -/
def power (f : Frame) : Bool := frameBit f powerByte powerBit

/-- `temp(F) = F[14][5:1]` (R16, R72). -/
def temp (f : Frame) : BitVec 5 := f[tempByte].extractLsb' tempLo 5

/-- `half(F) = F[14][0]` (R17, R72). -/
def half (f : Frame) : Bool := frameBit f tempByte halfBit

/-- `powerfull(F) = F[21][0]` (R18, R72). -/
def powerfull (f : Frame) : Bool := frameBit f fanByte powerfullBit

/-- `quiet(F) = F[21][5]` (R18, R72). -/
def quiet (f : Frame) : Bool := frameBit f fanByte quietBit

/-- `fan(F)`: the mode, or none for the invalid pair (R18, R72). -/
def fan (f : Frame) : Option FanMode :=
  match quiet f, powerfull f with
  | false, false => some .auto
  | false, true => some .powerfull
  | true, false => some .quiet
  | true, true => none

/-- `csum(F) = F[26]` (R19, R72). -/
def csum (f : Frame) : Byte := f[csumIdx]

/-- `st_power` (R84). -/
def stPower (s : State) : Bool := power s.frame

/-- `st_temp`, the temperature as an unsigned integer (R84). -/
def stTemp (s : State) : BitVec 5 := temp s.frame

/-- `st_half` (R84). -/
def stHalf (s : State) : Bool := half s.frame

/-- `st_fan = {F[21][5], F[21][0]}` (R84). -/
def stFan (s : State) : BitVec 2 := BitVec.ofBool (quiet s.frame) ++ BitVec.ofBool (powerfull s.frame)

end Sys2Proof.Machine
end

