-- ==== Sys2Proof/Machine/Ports.lean ====
section
/-!
DEFINITION. The input ports of 43_pulse_transmitter.md R96 and the handshake of R102, read from the host's moves that State
holds (log entry 3).
-/

namespace Sys2Proof.Machine

/-- `rst` in this tick. -/
def rst (s : State) : Bool := s.rstIn.headD false

/-- What the host presents in this tick: `some w` is `cmd_valid = 1`, `cmd = w`. -/
def offer (s : State) : Option CmdWord := s.cmdIn.headD none

/-- `cmd_ready = 1` if and only if `ph = IDLE` and `rst = 0` (R102). -/
def cmdReady (s : State) : Bool := s.ph == .idle && !rst s

/-- The word accepted in this tick: presented while `cmd_ready = 1` (R96). -/
def accepted (s : State) : Option CmdWord := if cmdReady s then offer s else none

/-- What the host offers from the next tick on: a command that waits is held until it is accepted (R102, R116);
anything else moves on. -/
def nextOffers (s : State) : List (Option CmdWord) :=
  if (offer s).isSome && !cmdReady s then s.cmdIn else s.cmdIn.tail

/-- One tick passes at the ports: the host's moves go on, and `rsp_bit` is meaningless until a GET_BIT drives it
(R96, U6; log entries 3 and 6). The block's own state is untouched. -/
def State.nextTick (s : State) : State :=
  { s with
    rspBit := Config.rspIdle s.draws
    rstIn := s.rstIn.tail
    cmdIn := nextOffers s
    draws := s.draws + 1 }

end Sys2Proof.Machine
end

