-- ==== Sys2Proof/Machine/Step.lean ====
section
/-!
DEFINITION. The step: one tick of 43_pulse_transmitter.md R98, its inputs read from the host's moves in State.
-/

namespace Sys2Proof.Machine

/-- One tick (R98), in order of priority: reset; if idle, the command presented (an illegal word does nothing, R54);
if busy, the sequencer (R100). -/
def step (s : State) : Host.Outcome State Fault Refusal :=
  if rst s then .next s.nextTick.loadReset
  else if s.ph = .idle then
    match offer s with
    | none => .next s.nextTick
    | some w =>
      match Sys2Proof.decode w with
      | .ok i => exec i s.nextTick
      | .error _ => .next s.nextTick
  else .next (seqTick s.nextTick)

/-- `s` with the command word presented at the port in the tick that comes next, `rst = 0` there, and the sequencer idle
so that the word is accepted in it; the frame and the host's later moves are kept (log entry 4). -/
def State.withFetchWord (s : State) (nbits w : Nat) : State :=
  { s.withSeq .idle 0 0 0 with
    rstIn := false :: s.rstIn.tail
    cmdIn := some (BitVec.ofNat 16 (w % 2 ^ nbits)) :: s.cmdIn.tail }

end Sys2Proof.Machine
end

