-- ==== Sys2Proof/Machine/Trace.lean ====
section
/-!
DEFINITION. The transaction level's view of a transmission: symbols, subframes and the trace of a frame as lists of
intervals (43_pulse_transmitter.md R88 to R90), and the run-length encoding of a waveform (R103(b)).
-/

namespace Sys2Proof.Machine

/-- An interval: the level (`true` = 1 = on = mark) and the duration in microseconds (R8). -/
abbrev Interval := Bool × Nat

/-- `START` (R60, R88). -/
def startSymbol : List Interval := [(true, tStartMark), (false, tStartSpace)]

/-- `BIT(b)` (R60, R88). -/
def bitSymbol (b : Bool) : List Interval := [(true, tBitMark), (false, bitSpace b)]

/-- `STOP` (R60, R88). -/
def stopSymbol : List Interval := [(true, tStopMark), (false, tStopSpace)]

/-- `BYTE(b)`: bit 0 first (R33, R89). -/
def byteIntervals (b : Byte) : List Interval :=
  [0, 1, 2, 3, 4, 5, 6, 7].flatMap fun i => bitSymbol (b.getLsbD i)

/-- `SUBFRAME(b_1..b_n)` (R64, R89). -/
def subframe (bytes : List Byte) : List Interval :=
  startSymbol ++ bytes.flatMap byteIntervals ++ stopSymbol

/-- `TRACE(F)`: the header subframe, then the body subframe (R90). -/
def trace (f : Frame) : List Interval :=
  subframe (f.toList.take 8) ++ subframe (f.toList.drop 8)

/-- The duration of a list of intervals, in microseconds (R92). -/
def duration (t : List Interval) : Nat := (t.map Prod.snd).sum

/-- The number of 1 bits of a byte. -/
def byteOnes (b : Byte) : Nat :=
  ([0, 1, 2, 3, 4, 5, 6, 7].map fun i => (b.getLsbD i).toNat).sum

/-- `n1`: the number of 1 bits among the frame's 216 (R92). -/
def ones (f : Frame) : Nat := (f.toList.map byteOnes).sum

/-- The waveform of a list of intervals, one level a tick (R100: an interval `d` is held for `d` states). -/
def levels (t : List Interval) : List Bool := t.flatMap fun p => List.replicate p.2 p.1

/-- Run-length encoding: "each maximal run of equal levels as one interval, its length in ticks as its duration"
(R103(b)). -/
def runLengths : List Bool → List Interval
  | [] => []
  | b :: rest =>
    match runLengths rest with
    | [] => [(b, 1)]
    | (c, n) :: more => if b = c then (c, n + 1) :: more else (b, 1) :: (c, n) :: more

end Sys2Proof.Machine
end

