-- ==== Sys2Proof/Machine/Transaction.lean ====
section
/-!
DEFINITION. The transaction level (00_scope.md R5): a frame, commands as atomic transitions of it, a SEND that yields a
trace; a session of commands issued one after the other; and the encoder of 42_frame_mutators.md R86.
-/

namespace Sys2Proof.Machine

/-- The frame after a command (R44: SEND and GET_BIT write nothing in it). -/
def commandFrame : Instr → Frame → Frame
  | .setPower on, f => powerFrame on f
  | .setTemp value half, f => tempFrame value half f
  | .setFan mode, f => fanFrame mode f
  | .send, f => f
  | .getBit _ _, f => f

/-- The trace a command emits: SEND the frame's, every other command none (R91, R77). -/
def commandTrace : Instr → Frame → List Interval
  | .setPower _, _ => []
  | .setTemp _ _, _ => []
  | .setFan _, _ => []
  | .send, f => trace f
  | .getBit _ _, _ => []

/-- The ticks from the acceptance of a command to the next state in which one can be accepted (R104, R132). -/
def commandTicks (i : Instr) (f : Frame) : Nat := duration (commandTrace i f) + 1

/-- `ir_out` over those ticks: the trace's levels, then one idle tick (R104). -/
def commandWave (i : Instr) (f : Frame) : List Bool := levels (commandTrace i f) ++ [false]

/-- The frame after the commands of a session, in order (R39). -/
def sessionFrame : List Instr → Frame → Frame
  | [], f => f
  | i :: rest, f => sessionFrame rest (commandFrame i f)

/-- The ticks a session takes when each command is offered as soon as the one before it is done. -/
def sessionTicks : List Instr → Frame → Nat
  | [], _ => 0
  | i :: rest, f => commandTicks i f + sessionTicks rest (commandFrame i f)

/-- `ir_out` over those ticks. -/
def sessionWave : List Instr → Frame → List Bool
  | [], _ => []
  | i :: rest, f => commandWave i f ++ sessionWave rest (commandFrame i f)

/-- `enc(p, t, h, m)` over a template: "a pure function from (power, temperature, half-flag, fan mode) to a 27-byte
sequence" (R86). -/
def enc (template : Frame) (p : Bool) (t : BitVec 5) (h : Bool) (m : FanMode) : Frame :=
  let a := writeBit template powerByte powerBit p
  let b := writeBit (writeTemp a t.toNat) tempByte halfBit h
  let c := writeBit b fanByte powerfullBit (fanPowerfull m)
  updateChecksum (writeBit c fanByte quietBit (fanQuiet m))

/-- The command fields of a frame as values (R72). -/
structure Fields where
  /-- `power(F)` -/
  power : Bool
  /-- `temp(F)` -/
  temp : BitVec 5
  /-- `half(F)` -/
  half : Bool
  /-- `powerfull(F)` -/
  powerfull : Bool
  /-- `quiet(F)` -/
  quiet : Bool
deriving DecidableEq, Repr

/-- The fields a frame holds (R72). -/
def fieldsOf (f : Frame) : Fields where
  power := power f
  temp := temp f
  half := half f
  powerfull := powerfull f
  quiet := quiet f

/-- What a command does to the fields, said without bytes (the last sentence of R86, command by command). -/
def commandFields : Instr → Fields → Fields
  | .setPower true, v => { v with power := true }
  | .setPower false, v => { v with power := false, powerfull := false, quiet := false }
  | .setTemp value half, v =>
    if tempAccepted value then { v with temp := BitVec.ofNat 5 value, half := storedHalf value half } else v
  | .setFan mode, v => { v with powerfull := fanPowerfull mode, quiet := fanQuiet mode }
  | .send, v => v
  | .getBit _ _, v => v

end Sys2Proof.Machine
end

