-- ==== Sys2Proof/Safety.lean ====
section
/-!
DEFINITION. The invariants of 10_state.md R24 to R27 and 43_pulse_transmitter.md R97, the premises WF1 to WF4 of R14, the
bits each command may write (20_memory.md R44), and the states and the waveform of a run.
-/

namespace Sys2Proof.Machine

/-- `F[26] = sum(F[8..25]) mod 256` (R25; of the template: WF1). -/
abbrev ChecksumOk (f : Frame) : Prop := (csum f).toNat = bodySum f % 256

/-- Temperature in 16..30, half 0 at 30 (R27; of the template: WF2 and WF3). -/
abbrev TempOk (f : Frame) : Prop :=
  16 ≤ (temp f).toNat ∧ (temp f).toNat ≤ 30 ∧ ((temp f).toNat = 30 → half f = false)

/-- Not both fan-mode bits (R26; of the template: WF4). -/
abbrev FanOk (f : Frame) : Prop := ¬(powerfull f = true ∧ quiet f = true)

/-- WF1 to WF4 (R14): premises of a claim, checked by no rule of the block. -/
abbrev TemplateOk (t : Frame) : Prop := ChecksumOk t ∧ TempOk t ∧ FanOk t

/-- The header bytes are the template's (R24). -/
abbrev HeaderOk (s : State) : Prop := ∀ k : Fin 27, k ≤ 7 → s.frame[k] = s.template[k]

/-- The bits that some command writes (R12, R44, R81). -/
def fieldBit (k : Fin 27) (i : Fin 8) : Bool :=
  (k == 13 && i == 0) || (k == 14 && decide (i ≤ 5)) || (k == 21 && (i == 0 || i == 5)) || k == 26

/-- Every other bit is the template's (R81). -/
abbrev PreservedOk (s : State) : Prop :=
  ∀ (k : Fin 27) (i : Fin 8), fieldBit k i = false → frameBit s.frame k i = frameBit s.template k i

/-- The frame's invariant: WF1 to WF4 and R24 to R27, R81 (R82). -/
abbrev FrameInv (s : State) : Prop :=
  TemplateOk s.template ∧ HeaderOk s ∧ PreservedOk s ∧ ChecksumOk s.frame ∧ TempOk s.frame ∧ FanOk s.frame

/-- The longest interval of a phase (R88). -/
def phaseMax : Phase → Nat
  | .idle => 0
  | .startMark => 3500
  | .startSpace => 1700
  | .bitMark => 430
  | .bitSpace => 1300
  | .stopMark => 430
  | .stopSpace => 10000

/-- The sequencer's invariant (R97); `bi` is in 0..26 and `bt` in 0..7 by their types. In a start bit `bi` is the first
byte of its subframe, in a stop bit the last, and no interval has more left than its length (R99, R100). -/
abbrev SeqInv (s : State) : Prop :=
  (s.ph = .idle ↔ s.cnt = 0) ∧ s.cnt ≤ 10000 ∧ s.cnt ≤ phaseMax s.ph ∧
  (s.ph = .idle → s.bi = 0 ∧ s.bt = 0) ∧
  (s.ph = .startMark ∨ s.ph = .startSpace → (s.bi = 0 ∨ s.bi = 8) ∧ s.bt = 0) ∧
  (s.ph = .stopMark ∨ s.ph = .stopSpace → (s.bi = 7 ∨ s.bi = 26) ∧ s.bt = 0)

/-- The block's own state right after a reset, under any moves of the host (R28). -/
abbrev AtReset (s : State) : Prop :=
  s.frame = s.template ∧ s.ph = .idle ∧ s.bi = 0 ∧ s.bt = 0 ∧ s.cnt = 0

/-- The bits a command may write (R44); a SET_TEMP out of range writes nothing. -/
def mayWrite : Instr → Fin 27 → Fin 8 → Bool
  | .setPower on, k, i => (k == 13 && i == 0) || (!on && k == 21 && (i == 0 || i == 5)) || k == 26
  | .setTemp value _, k, i => decide (16 ≤ value ∧ value ≤ 30) && ((k == 14 && decide (i ≤ 5)) || k == 26)
  | .setFan _, k, i => (k == 21 && (i == 0 || i == 5)) || k == 26
  | .send, _, _ => false
  | .getBit _ _, _, _ => false

/-- The three commands that write the frame (R77). -/
def isMutator : Instr → Bool
  | .setPower _ => true
  | .setTemp _ _ => true
  | .setFan _ => true
  | .send => false
  | .getBit _ _ => false

/-- The state after `n` ticks; a step that gave no next state would leave it where it is. -/
def stateAfter : Nat → State → State
  | 0, s => s
  | n + 1, s =>
    match step s with
    | .next t => stateAfter n t
    | .fault _ => s
    | .refused _ => s

/-- `ir_out(s_1), ..., ir_out(s_n)`: the levels in the states after the next `n` ticks (R103(b)). -/
def waveform : Nat → State → List Bool
  | 0, _ => []
  | n + 1, s =>
    match step s with
    | .next t => irOut t :: waveform n t
    | .fault _ => []
    | .refused _ => []

end Sys2Proof.Machine
end

