-- ==== Sys2Proof/Certificates/Slice0/Obligations.lean ====
section
/-!
DEFINITION. The statements about the model, each read from the spec's numbered rules. The names of the rules and the
sentences quoted stand in OBLIGATIONS.json; a docstring says what is the model's own choice.
-/

open Sys2Proof Sys2Proof.Machine

/-! ### Reset and the step -/

/-- The reset state of R28, field by field. That the template is an opaque constant is the model's (log entry 1). -/
def Obligations.ResetStateIsTheTemplateAndIdle : Prop :=
  (∀ k : Fin 27, State.reset.frame[k] = Config.template[k]) ∧
  power State.reset.frame = Config.template[13].getLsbD 0 ∧
  temp State.reset.frame = Config.template[14].extractLsb' 1 5 ∧
  half State.reset.frame = Config.template[14].getLsbD 0 ∧
  quiet State.reset.frame = Config.template[21].getLsbD 5 ∧
  powerfull State.reset.frame = Config.template[21].getLsbD 0 ∧
  State.reset.frame[26] = Config.template[26] ∧
  State.reset.ph = .idle ∧ State.reset.bi = 0 ∧ State.reset.bt = 0 ∧ State.reset.cnt = 0 ∧
  busy State.reset = false ∧ irOut State.reset = false

/-- R120: what a tick with `rst = 1` does from any state, busy or idle, whatever the host presents; that no command is
accepted in it; and that holding `rst` for one more tick changes nothing. -/
def Obligations.ResetTickLoadsTheResetState : Prop :=
  ∀ s : State, rst s = true →
    cmdReady s = false ∧ accepted s = none ∧
    ∃ t, step s = .next t ∧
      (∀ k : Fin 27, t.frame[k] = s.template[k]) ∧ t.template = s.template ∧
      t.ph = .idle ∧ t.bi = 0 ∧ t.bt = 0 ∧ t.cnt = 0 ∧
      busy t = false ∧ irOut t = false ∧
      stPower t = s.template[13].getLsbD 0 ∧ stTemp t = s.template[14].extractLsb' 1 5 ∧
      stHalf t = s.template[14].getLsbD 0 ∧
      stFan t = BitVec.ofBool (s.template[21].getLsbD 5) ++ BitVec.ofBool (s.template[21].getLsbD 0) ∧
      (rst t = true → ∃ u, step t = .next u ∧ u.frame = t.frame ∧ u.template = t.template ∧
        u.ph = t.ph ∧ u.bi = t.bi ∧ u.bt = t.bt ∧ u.cnt = t.cnt)

/-- A step runs the decoded command (R98): in an idle tick without reset the word presented, if it decodes to `i`, is
executed by `exec i`, on the state in which only the ports have moved on: the accepted offer is gone, the block's own
registers are untouched, `rsp_bit` is a free value until a GET_BIT drives it (the ports and the free value are the
model's, log entries 3 and 6). -/
def Obligations.StepRunsTheDecodedCommand : Prop :=
  ∀ (s : State) (w : CmdWord) (i : Instr),
    rst s = false → s.ph = .idle → offer s = some w → decode w = .ok i →
    step s = exec i s.nextTick ∧
    s.nextTick = { s with
      rspBit := Config.rspIdle s.draws, rstIn := s.rstIn.tail, cmdIn := s.cmdIn.tail, draws := s.draws + 1 }

/-- The other branches of R98: an idle tick in which nothing, or an illegal word, is presented moves the ports on and does
nothing else; a busy tick is the sequencer's, whatever is presented. -/
def Obligations.TicksWithoutAnAcceptedCommand : Prop :=
  ∀ s : State, rst s = false →
    (s.ph = .idle → offer s = none → step s = .next s.nextTick) ∧
    (∀ w e, s.ph = .idle → offer s = some w → decode w = .error e → step s = .next s.nextTick) ∧
    (s.ph ≠ .idle → step s = .next (seqTick s.nextTick))

/-- R109 and R23: every step yields a next state, and the template is never written. -/
def Obligations.EveryStepGivesANextStateAndKeepsTheTemplate : Prop :=
  ∀ s : State, ∃ t, step s = .next t ∧ t.template = s.template

/-- R96, R102, R116: a command that is presented and not accepted is held for the next tick; anything else gives way to the
host's next move; `rst` has a level of its own in every tick. The lists of moves are the model's (log entry 3). -/
def Obligations.WaitingCommandsAreHeld : Prop :=
  ∀ s : State, ∃ t, step s = .next t ∧ t.rstIn = s.rstIn.tail ∧
    (∀ w, offer s = some w → cmdReady s = false → t.cmdIn = s.cmdIn) ∧
    (offer s = none ∨ cmdReady s = true → t.cmdIn = s.cmdIn.tail)

/-! ### The command word -/

/-- R63: `decode(encode(c)) = c` for every command `c` a word can present. -/
def Obligations.DecodeOfEncodeIsTheCommand : Prop :=
  ∀ i : Instr, i.wellFormed = true → ∃ w, encode i = some w ∧ decode w = .ok i

/-- R63: `encode` is the inverse on legal words; a decoded command is well-formed, and the word is the only one for it. -/
def Obligations.EncodeOfDecodeIsTheWord : Prop :=
  ∀ (w : CmdWord) (i : Instr), decode w = .ok i → i.wellFormed = true ∧ encode i = some w

/-- R48 to R52: every legal word decodes to the command whose operands are the word's fields, unsigned. -/
def Obligations.LegalWordsDecodeToTheirFields : Prop :=
  ∀ w : CmdWord,
    (w &&& 0xFFFE = 0x1000 → decode w = .ok (.setPower (w.getLsbD 0))) ∧
    (w &&& 0xFE00 = 0x2000 → decode w = .ok (.setTemp (w.extractLsb' 0 8).toNat (w.getLsbD 8))) ∧
    (w = 0x3000 → decode w = .ok (.setFan .auto)) ∧
    (w = 0x3001 → decode w = .ok (.setFan .powerfull)) ∧
    (w = 0x3002 → decode w = .ok (.setFan .quiet)) ∧
    (w = 0x4000 → decode w = .ok .send) ∧
    (w &&& 0xFE00 = 0x5000 → decode w = .ok (.getBit (w.extractLsb' 0 5).toNat (w.extractLsb' 5 4).toNat))

/-- R54: the illegal words are exactly those with `op` outside `0x1..0x5`, a reserved operand bit set, or SET_FAN with
`mode = 0b11`; one presented to an idle block is accepted and discarded: no state of the block changes. -/
def Obligations.IllegalWordsAreDiscarded : Prop :=
  (∀ w : CmdWord, (∃ e, decode w = .error e) ↔
    let op := w.extractLsb' 12 4
    (op = 0 ∨ 5 < op) ∨
    (op = 1 ∧ w &&& 0x0FFE ≠ 0) ∨ (op = 2 ∧ w &&& 0x0E00 ≠ 0) ∨ (op = 3 ∧ w &&& 0x0FFC ≠ 0) ∨
    (op = 4 ∧ w &&& 0x0FFF ≠ 0) ∨ (op = 5 ∧ w &&& 0x0E00 ≠ 0) ∨
    w = 0x3003) ∧
  (∀ (s : State) (w : CmdWord) (e : Illegal), rst s = false → s.ph = .idle → offer s = some w → decode w = .error e →
    accepted s = some w ∧
    ∃ t, step s = .next t ∧ t.frame = s.frame ∧ t.template = s.template ∧
      t.ph = s.ph ∧ t.bi = s.bi ∧ t.bt = s.bt ∧ t.cnt = s.cnt ∧ irOut t = false)

/-- The words written out in R48 to R52 and R61 decode to the commands they stand for. -/
def Obligations.WrittenWordsDecode : Prop :=
  decode 0x1001 = .ok (.setPower true) ∧ decode 0x2118 = .ok (.setTemp 24 true) ∧
  decode 0x3002 = .ok (.setFan .quiet) ∧ decode 0x4000 = .ok .send ∧ decode 0x50FA = .ok (.getBit 26 7)

/-! ### Bit accesses and the checksum -/

/-- R67, R68: in range, `setBit` and `clearBit` write the one bit named and leave the other 215; out of range they write
nothing. -/
def Obligations.BitWritesChangeOneBit : Prop :=
  ∀ (f : Frame) (k i : Nat),
    (k ≤ 26 ∧ i ≤ 7 →
      (∀ (k' : Fin 27) (i' : Fin 8), frameBit (setBit f k i) k' i' =
        if k'.val = k ∧ i'.val = i then true else frameBit f k' i') ∧
      (∀ (k' : Fin 27) (i' : Fin 8), frameBit (clearBit f k i) k' i' =
        if k'.val = k ∧ i'.val = i then false else frameBit f k' i')) ∧
    (27 ≤ k ∨ 8 ≤ i → setBit f k i = f ∧ clearBit f k i = f)

/-- R66, R69: GET_BIT drives `rsp_bit` with the addressed bit; out of range with a free value (log entry 5), whatever it is.
It changes nothing else. -/
def Obligations.GetBitDrivesTheResponseBit : Prop :=
  ∀ (s : State) (k i : Nat),
    (∀ (hk : k < 27), i < 8 →
      exec (.getBit k i) s = .next { s with rspBit := decide (s.frame[k].toNat / 2 ^ i % 2 = 1) }) ∧
    (27 ≤ k ∨ 8 ≤ i →
      exec (.getBit k i) s = .next { s with rspBit := Config.getbitOor s.draws, draws := s.draws + 1 })

/-- R73: the checksum is the sum of bytes 8 to 25 modulo 256, and depends on no other byte. -/
def Obligations.ChecksumIsTheSumOfEighteenBytes : Prop :=
  (∀ f : Frame, (checksum f).toNat =
    (f[8].toNat + f[9].toNat + f[10].toNat + f[11].toNat + f[12].toNat + f[13].toNat + f[14].toNat + f[15].toNat +
     f[16].toNat + f[17].toNat + f[18].toNat + f[19].toNat + f[20].toNat + f[21].toNat + f[22].toNat + f[23].toNat +
     f[24].toNat + f[25].toNat) % 256) ∧
  (∀ f g : Frame, (∀ k : Fin 27, 8 ≤ k → k ≤ 25 → f[k] = g[k]) → checksum f = checksum g)

/-- R74: the unbounded sum is at most 4590; an 8-bit accumulator that wraps after every addition, over the 18 bytes in any
order, gives the same checksum. -/
def Obligations.ChecksumReductionOrderIsImmaterial : Prop :=
  ∀ f : Frame, bodySum f ≤ 4590 ∧
    ∀ l : List Byte, l.Perm ((f.toList.drop 8).take 18) → l.foldl (fun acc b => acc + b) 0 = checksum f

/-- R75: `updateChecksum` writes `F[26]` and nothing else, and the checksum invariant holds after it, whatever `F[26]`
held before. -/
def Obligations.UpdateChecksumEstablishesTheInvariant : Prop :=
  ∀ f : Frame, ChecksumOk (updateChecksum f) ∧ ∀ k : Fin 27, k ≠ 26 → (updateChecksum f)[k] = f[k]

/-! ### The five commands -/

/-- R78: SET_POWER completes in every state; every bit of the frame after it, byte 26 as the checksum, and nothing else
of the state changes. -/
def Obligations.SetPowerWritesPowerAndPowerOffClearsTheFan : Prop :=
  ∀ (on : Bool) (s : State), ∃ f : Frame,
    exec (.setPower on) s = .next { s with frame := f } ∧
    (∀ (k : Fin 27) (i : Fin 8), k ≠ 26 → frameBit f k i =
      if k = 13 ∧ i = 0 then on
      else if on = false ∧ k = 21 ∧ (i = 0 ∨ i = 5) then false
      else frameBit s.frame k i) ∧
    f[26].toNat = bodySum f % 256 ∧
    encode (.setPower on) = some (0x1000 + BitVec.ofNat 16 on.toNat)

/-- R79: an accepted SET_TEMP writes the low six bits of byte 14 and the checksum, half forced to 0 at 30; any other value
leaves the whole state as it was. -/
def Obligations.SetTempWritesTemperatureOrNothing : Prop :=
  ∀ (value : Nat) (half : Bool) (s : State),
    (value < 16 ∨ 30 < value → exec (.setTemp value half) s = .next s) ∧
    (16 ≤ value → value ≤ 30 → ∃ f : Frame,
      exec (.setTemp value half) s = .next { s with frame := f } ∧
      (∀ k : Fin 27, k ≠ 14 → k ≠ 26 → f[k] = s.frame[k]) ∧
      f[14] = (s.frame[14] &&& 0xC0) |||
        BitVec.ofNat 8 (2 * value + (if value = 30 then false else half).toNat) ∧
      f[26].toNat = bodySum f % 256) ∧
    (value ≤ 255 → encode (.setTemp value half) = some (BitVec.ofNat 16 (0x2000 + 256 * half.toNat + value)))

/-- R80: SET_FAN writes the two mode bits (AUTO 0b00, POWERFULL 0b01, QUIET 0b10) and the checksum, nothing else. -/
def Obligations.SetFanWritesTheModeBits : Prop :=
  ∀ (mode : FanMode) (s : State), ∃ f : Frame,
    exec (.setFan mode) s = .next { s with frame := f } ∧
    (∀ (k : Fin 27) (i : Fin 8), k ≠ 26 → frameBit f k i =
      if k = 21 ∧ i = 0 then decide (mode = .powerfull)
      else if k = 21 ∧ i = 5 then decide (mode = .quiet)
      else frameBit s.frame k i) ∧
    f[26].toNat = bodySum f % 256 ∧
    encode (.setFan mode) = some (match mode with | .auto => 0x3000 | .powerfull => 0x3001 | .quiet => 0x3002)

/-- R99: SEND loads the start-mark and changes nothing else; in the state after the tick that accepts it `ir_out = 1` and
`busy = 1`, and the frame is as it was. -/
def Obligations.SendLoadsTheStartMark : Prop :=
  (∀ s : State, exec .send s = .next { s with ph := .startMark, bi := 0, bt := 0, cnt := 3500 }) ∧
  (∀ s : State, accepted s = some 0x4000 → ∃ t, step s = .next t ∧
    t.ph = .startMark ∧ t.bi = 0 ∧ t.bt = 0 ∧ t.cnt = 3500 ∧ t.frame = s.frame ∧
    irOut t = true ∧ busy t = true)

/-! ### Flags, status outputs, the sequencer -/

/-- R22, R101, R102: `busy`, `ir_out` and `cmd_ready` in every state. -/
def Obligations.FlagsFollowThePhase : Prop :=
  ∀ s : State,
    (busy s = true ↔ s.ph ≠ .idle) ∧
    (irOut s = true ↔ s.ph = .startMark ∨ s.ph = .bitMark ∨ s.ph = .stopMark) ∧
    (cmdReady s = true ↔ s.ph = .idle ∧ rst s = false)

/-- R72, R84: the four status outputs as numbers of the frame's bits. -/
def Obligations.StatusOutputsShowTheFields : Prop :=
  ∀ s : State,
    stPower s = frameBit s.frame 13 0 ∧
    (stTemp s).toNat = 16 * (frameBit s.frame 14 5).toNat + 8 * (frameBit s.frame 14 4).toNat +
      4 * (frameBit s.frame 14 3).toNat + 2 * (frameBit s.frame 14 2).toNat + (frameBit s.frame 14 1).toNat ∧
    stHalf s = frameBit s.frame 14 0 ∧
    (stFan s).toNat = 2 * (frameBit s.frame 21 5).toNat + (frameBit s.frame 21 0).toNat

/-- R100: the busy tick, phase by phase; the frame is never written. -/
def Obligations.BusyTickFollowsTheSequencerTable : Prop :=
  ∀ s : State, s.ph ≠ .idle → rst s = false → ∃ t, step s = .next t ∧ t.frame = s.frame ∧
    (1 < s.cnt → t.ph = s.ph ∧ t.bi = s.bi ∧ t.bt = s.bt ∧ t.cnt = s.cnt - 1) ∧
    (s.cnt ≤ 1 →
      (s.ph = .startMark → t.ph = .startSpace ∧ t.bi = s.bi ∧ t.bt = s.bt ∧ t.cnt = 1700) ∧
      (s.ph = .startSpace → t.ph = .bitMark ∧ t.bi = s.bi ∧ t.bt = s.bt ∧ t.cnt = 430) ∧
      (s.ph = .bitMark → t.ph = .bitSpace ∧ t.bi = s.bi ∧ t.bt = s.bt ∧
        t.cnt = if s.frame[s.bi].toNat / 2 ^ s.bt.val % 2 = 1 then 1300 else 440) ∧
      (s.ph = .bitSpace → s.bt.val < 7 →
        t.ph = .bitMark ∧ t.bi = s.bi ∧ t.bt.val = s.bt.val + 1 ∧ t.cnt = 430) ∧
      (s.ph = .bitSpace → s.bt.val = 7 → s.bi.val ≠ 7 → s.bi.val ≠ 26 →
        t.ph = .bitMark ∧ t.bi.val = s.bi.val + 1 ∧ t.bt = 0 ∧ t.cnt = 430) ∧
      (s.ph = .bitSpace → s.bt.val = 7 → s.bi.val = 7 ∨ s.bi.val = 26 →
        t.ph = .stopMark ∧ t.bi = s.bi ∧ t.bt = 0 ∧ t.cnt = 430) ∧
      (s.ph = .stopMark → t.ph = .stopSpace ∧ t.bi = s.bi ∧ t.bt = s.bt ∧ t.cnt = 10000) ∧
      (s.ph = .stopSpace → s.bi.val = 7 → t.ph = .startMark ∧ t.bi = 8 ∧ t.bt = 0 ∧ t.cnt = 3500) ∧
      (s.ph = .stopSpace → s.bi.val ≠ 7 → t.ph = .idle ∧ t.bi = 0 ∧ t.bt = 0 ∧ t.cnt = 0))

/-- R93, R100: an interval with `cnt` ticks left is held, level and position unchanged, until its last tick, whatever
commands the host presents, as long as no reset is asserted. -/
def Obligations.IntervalsAreHeldForTheirDuration : Prop :=
  ∀ (n : Nat) (s : State), s.ph ≠ .idle → n < s.cnt → (∀ b ∈ s.rstIn.take n, b = false) →
    let t := stateAfter n s
    t.ph = s.ph ∧ t.bi = s.bi ∧ t.bt = s.bt ∧ t.cnt = s.cnt - n ∧ irOut t = irOut s ∧ t.frame = s.frame

/-- R102, R127: a command presented while `busy = 1` is neither executed nor dropped: the frame stays, and the next state
still presents it. -/
def Obligations.CommandsWaitWhileBusy : Prop :=
  ∀ (s : State) (w : CmdWord), busy s = true → rst s = false → offer s = some w →
    accepted s = none ∧ ∃ t, step s = .next t ∧ t.frame = s.frame ∧ offer t = some w ∧ t.cmdIn = s.cmdIn

/-! ### Invariants -/

/-- R97: every step keeps the sequencer's invariant. -/
def Obligations.SequencerInvariantIsKept : Prop :=
  ∀ s t : State, SeqInv s → step s = .next t → SeqInv t

/-- R97: it holds right after reset. -/
def Obligations.SequencerInvariantAtReset : Prop := SeqInv State.reset

/-- R82: under WF1 to WF4 every step keeps the frame's invariants, a reset tick included. -/
def Obligations.FrameInvariantIsKept : Prop :=
  ∀ s t : State, FrameInv s → step s = .next t → FrameInv t

/-- R14, R82: at reset the frame's invariants are WF1 to WF4 of the template, neither more nor less. -/
def Obligations.FrameInvariantAtReset : Prop := FrameInv State.reset ↔ TemplateOk Config.template

/-- R24 to R27: from any reset state whose template meets WF1 to WF4, under any moves of the host and after any number of
ticks, the four invariants hold. -/
def Obligations.FourInvariantsHoldInEveryReachableState : Prop :=
  ∀ (n : Nat) (s : State), AtReset s → TemplateOk s.template →
    let f := (stateAfter n s).frame
    (∀ k : Fin 27, k ≤ 7 → f[k] = s.template[k]) ∧
    f[26].toNat = bodySum f % 256 ∧
    ¬(frameBit f 21 0 = true ∧ frameBit f 21 5 = true) ∧
    16 ≤ (f[14].extractLsb' 1 5).toNat ∧ (f[14].extractLsb' 1 5).toNat ≤ 30 ∧
    ((f[14].extractLsb' 1 5).toNat = 30 → frameBit f 14 0 = false)

/-- R81: from any reset state, whatever the template and the host's moves, every bit outside the fields and the checksum
keeps its template value for ever. -/
def Obligations.TemplateBitsAreNeverWritten : Prop :=
  ∀ (n : Nat) (s : State), AtReset s → ∀ (k : Fin 27) (i : Fin 8),
    ¬(k = 13 ∧ i = 0) → ¬(k = 14 ∧ i ≤ 5) → ¬(k = 21 ∧ (i = 0 ∨ i = 5)) → k ≠ 26 →
    frameBit (stateAfter n s).frame k i = frameBit s.template k i

/-- R86: every reachable frame is the encoder's output on its own fields, given WF1 to WF4. -/
def Obligations.ReachableFrameIsTheEncodersOutput : Prop :=
  ∀ (n : Nat) (s : State), AtReset s → TemplateOk s.template →
    let f := (stateAfter n s).frame
    ∃ m, fan f = some m ∧ f = enc s.template (power f) (temp f) (half f) m

/-! ### What a command may write, over all commands -/

/-- R44: no command changes a bit outside its write set; a mutator changes nothing but the frame, SEND nothing but the
sequencer position, GET_BIT nothing but `rsp_bit` (and the model's count of free values, log entry 5). -/
def Obligations.CommandsWriteOnlyTheirBits : Prop :=
  ∀ (i : Instr) (s t : State), exec i s = .next t →
    (∀ (k : Fin 27) (b : Fin 8), mayWrite i k b = false → frameBit t.frame k b = frameBit s.frame k b) ∧
    (isMutator i = true → t = { s with frame := t.frame }) ∧
    (i = .send → t = { s with ph := t.ph, bi := t.bi, bt := t.bt, cnt := t.cnt }) ∧
    (∀ k b, i = .getBit k b → t = { s with rspBit := t.rspBit, draws := t.draws })

/-- R42, R70, R111: if a step changes the frame, then `rst = 1` or the block was idle and accepted a mutator. -/
def Obligations.OnlyMutatorsAndResetChangeTheFrame : Prop :=
  ∀ s t : State, step s = .next t → t.frame ≠ s.frame →
    rst s = true ∨ ∃ w i, accepted s = some w ∧ decode w = .ok i ∧ isMutator i = true ∧ s.ph = .idle

/-- R66, U6: neither the response bit nor the count of free values reaches the block's own state or the ports: two states
that differ in these two alone step to states that differ in these two alone. -/
def Obligations.OpenValuesReachOnlyTheResponseBit : Prop :=
  ∀ (s t u : State) (b : Bool) (n : Nat),
    step s = .next t → step { s with rspBit := b, draws := n } = .next u →
    u = { t with rspBit := u.rspBit, draws := u.draws }

/-- R5: `exec` of a command leaves the frame of the transaction level. -/
def Obligations.ExecGivesTheTransactionsFrame : Prop :=
  ∀ (i : Instr) (s : State), ∃ t, exec i s = .next t ∧ t.frame = commandFrame i s.frame

/-! ### The mutators' algebra -/

/-- R83: idempotence, absorption, and commutation of the mutators on every frame, with the one exception. -/
def Obligations.MutatorsAreIdempotentAbsorbAndCommute : Prop :=
  (∀ (i : Instr) (f : Frame), commandFrame i (commandFrame i f) = commandFrame i f) ∧
  (∀ (a b : Nat) (x y : Bool) (f : Frame), 16 ≤ b → b ≤ 30 → tempFrame b y (tempFrame a x f) = tempFrame b y f) ∧
  (∀ (m n : FanMode) (f : Frame), fanFrame n (fanFrame m f) = fanFrame n f) ∧
  (∀ (p q : Bool) (f : Frame), power (powerFrame q (powerFrame p f)) = q ∧
    (q = false → powerFrame q (powerFrame p f) = powerFrame q f)) ∧
  (∀ (p : Bool) (v : Nat) (h : Bool) (f : Frame),
    powerFrame p (tempFrame v h f) = tempFrame v h (powerFrame p f)) ∧
  (∀ (m : FanMode) (v : Nat) (h : Bool) (f : Frame),
    fanFrame m (tempFrame v h f) = tempFrame v h (fanFrame m f)) ∧
  (∀ (m : FanMode) (f : Frame), fanFrame m (powerFrame true f) = powerFrame true (fanFrame m f)) ∧
  (∀ (m : FanMode) (f : Frame),
    fan (powerFrame false (fanFrame m f)) = some .auto ∧ fan (fanFrame m (powerFrame false f)) = some m)

/-- R85: the checksum after each mutator in closed form, from a frame that satisfies the checksum invariant (in 8-bit
arithmetic, that is modulo 256). -/
def Obligations.ChecksumMovesWithTheFields : Prop :=
  ∀ f : Frame, ChecksumOk f →
    csum (powerFrame true f) = csum f + (1 - BitVec.ofNat 8 (power f).toNat) ∧
    csum (powerFrame false f) = csum f - BitVec.ofNat 8 (power f).toNat - BitVec.ofNat 8 (powerfull f).toNat -
      32 * BitVec.ofNat 8 (quiet f).toNat ∧
    (∀ (v : Nat) (h : Bool), 16 ≤ v → v ≤ 30 →
      csum (tempFrame v h f) =
        csum f + BitVec.ofNat 8 (2 * v + (if v = 30 then false else h).toNat) - (f[14] &&& 0x3F)) ∧
    (∀ m : FanMode, csum (fanFrame m f) =
      csum f + (BitVec.ofNat 8 (fanModeNumber m % 2) - BitVec.ofNat 8 (powerfull f).toNat) +
        32 * (BitVec.ofNat 8 (fanModeNumber m / 2) - BitVec.ofNat 8 (quiet f).toNat))

/-- R58: byte 14 is its two template bits, the temperature and the half flag; with the template bits clear it is
`2*temp + half`. -/
def Obligations.ByteFourteenIsTemplateTemperatureHalf : Prop :=
  ∀ f : Frame,
    f[14].toNat = 128 * (frameBit f 14 7).toNat + 64 * (frameBit f 14 6).toNat + 2 * (temp f).toNat + (half f).toNat ∧
    (frameBit f 14 7 = false → frameBit f 14 6 = false → f[14].toNat = 2 * (temp f).toNat + (half f).toNat)

/-- R79, R84 (the source's first two tests): after an accepted SET_TEMP the status outputs show the value and the stored
half; after SET_POWER and SET_FAN the power bit and the mode. -/
def Obligations.StatusOutputsReadBackTheCommands : Prop :=
  (∀ (v : Nat) (h : Bool) (s : State), 16 ≤ v → v ≤ 30 → ∃ t, exec (.setTemp v h) s = .next t ∧
    (stTemp t).toNat = v ∧ stHalf t = (h && decide (v ≠ 30)) ∧ stPower t = stPower s ∧ stFan t = stFan s) ∧
  (∀ (on : Bool) (s : State), ∃ t, exec (.setPower on) s = .next t ∧
    stPower t = on ∧ stFan t = (if on then stFan s else 0) ∧ stTemp t = stTemp s ∧ stHalf t = stHalf s) ∧
  (∀ (m : FanMode) (s : State), ∃ t, exec (.setFan m) s = .next t ∧
    (stFan t).toNat = fanModeNumber m ∧ stPower t = stPower s ∧ stTemp t = stTemp s ∧ stHalf t = stHalf s)

/-- R86: the fields after a session are those the commands give one after the other, last one wins. -/
def Obligations.FieldsFollowTheCommands : Prop :=
  ∀ (session : List Instr) (f : Frame),
    fieldsOf (sessionFrame session f) = session.foldl (fun v i => commandFields i v) (fieldsOf f)

/-! ### The trace and its emission -/

/-- R33, R64, R90: the trace interval by interval: the start and stop bits of both subframes at their places, and bit `i` of
byte `k` as the pair of intervals number `8*k + i` in the wire order. -/
def Obligations.TraceCarriesEveryBitInWireOrder : Prop :=
  ∀ f : Frame, (trace f).length = 440 ∧
    (trace f).take 2 = [(true, 3500), (false, 1700)] ∧
    ((trace f).drop 130).take 4 = [(true, 430), (false, 10000), (true, 3500), (false, 1700)] ∧
    (trace f).drop 438 = [(true, 430), (false, 10000)] ∧
    ∀ (k : Fin 27) (i : Fin 8),
      ((trace f).drop ((if k.val ≤ 7 then 2 else 6) + 2 * (8 * k.val + i.val))).take 2 =
        [(true, 430), (false, if frameBit f k i then 1300 else 440)]

/-- R92: counts and durations of a trace. -/
def Obligations.TraceCountsAndDurations : Prop :=
  ∀ f : Frame,
    let a := subframe (f.toList.take 8)
    let b := subframe (f.toList.drop 8)
    trace f = a ++ b ∧ (trace f).length = 440 ∧ a.length = 132 ∧ b.length = 308 ∧
    ((trace f).filter fun p => p.1).length = 220 ∧
    (trace f).count (true, 3500) = 2 ∧ (trace f).count (true, 430) = 218 ∧
    ((trace f).filter fun p => !p.1).length = 220 ∧
    (trace f).count (false, 1700) = 2 ∧ (trace f).count (false, 440) + ones f = 216 ∧
    (trace f).count (false, 1300) = ones f ∧ (trace f).count (false, 10000) = 2 ∧
    duration a = 71310 + 860 * ((f.toList.take 8).map byteOnes).sum ∧
    duration b = 147870 + 860 * ((f.toList.drop 8).map byteOnes).sum ∧
    duration (trace f) = 219180 + 860 * ones f ∧
    219180 ≤ duration (trace f) ∧ duration (trace f) ≤ 404940 ∧
    duration ((trace f).filter fun p => p.1) = 100740

/-- R89: levels alternate and no interval is empty, so no two adjacent intervals of a trace can merge on the line. -/
def Obligations.TraceIntervalsCannotMerge : Prop :=
  ∀ f : Frame, runLengths (levels (trace f)) = trace f

/-- R103: the tick level emits the transaction level's trace. `s` is the state in which SEND is accepted; no reset is
asserted in the following ticks (the levels of `rst` are the list `rstIn`, log entry 3); the host may present anything. -/
def Obligations.TransmissionEmitsTheTrace : Prop :=
  ∀ s : State, accepted s = some 0x4000 →
    let d := duration (trace s.frame)
    (∀ b ∈ s.rstIn.tail.take d, b = false) →
    (∀ j, 1 ≤ j → j ≤ d → busy (stateAfter j s) = true) ∧ busy (stateAfter (d + 1) s) = false ∧
    runLengths (waveform d s) = trace s.frame ∧
    (∀ j, j ≤ d + 1 → (stateAfter j s).frame = s.frame) ∧
    (stateAfter (d + 1) s).ph = .idle ∧ (stateAfter (d + 1) s).bi = 0 ∧
    (stateAfter (d + 1) s).bt = 0 ∧ (stateAfter (d + 1) s).cnt = 0

/-- R134: from every state that meets the sequencer's invariant, while no reset is asserted, the block is ready for a
command within 404940 ticks. -/
def Obligations.BlockBecomesReadyAgain : Prop :=
  ∀ s : State, SeqInv s → (∀ b ∈ s.rstIn, b = false) →
    ∃ n, n ≤ 404940 ∧ cmdReady (stateAfter n s) = true

/-- R5, R39, R40, R104: a session of commands, each offered at once and held until it is accepted, without a reset: after
the ticks the commands take, the frame is the one the commands leave as atomic transitions in order, `ir_out` was each
SEND's trace of the frame as it stood then, and one off tick for every command, and the block is idle. -/
def Obligations.SessionsRefineTransactions : Prop :=
  ∀ (session : List Instr) (s : State),
    (∀ i ∈ session, i.wellFormed = true) → s.ph = .idle → (∀ b ∈ s.rstIn, b = false) →
    s.cmdIn = session.map encode →
    let n := sessionTicks session s.frame
    (stateAfter n s).frame = sessionFrame session s.frame ∧ (stateAfter n s).ph = .idle ∧
    (stateAfter n s).cmdIn = [] ∧ waveform n s = sessionWave session s.frame
end

