-- ==== Sys2Proof/Laws/State.lean ====
section
/-!
SUPPORT. What each update of the state leaves in each field: one lemma per field per update, true by rfl.
-/

namespace Sys2Proof.Machine

@[simp] theorem State.withFrame_frame (s : State) (f : Frame) : (s.withFrame f).frame = f := rfl
@[simp] theorem State.withFrame_template (s : State) (f : Frame) : (s.withFrame f).template = s.template := rfl
@[simp] theorem State.withFrame_ph (s : State) (f : Frame) : (s.withFrame f).ph = s.ph := rfl
@[simp] theorem State.withFrame_bi (s : State) (f : Frame) : (s.withFrame f).bi = s.bi := rfl
@[simp] theorem State.withFrame_bt (s : State) (f : Frame) : (s.withFrame f).bt = s.bt := rfl
@[simp] theorem State.withFrame_cnt (s : State) (f : Frame) : (s.withFrame f).cnt = s.cnt := rfl
@[simp] theorem State.withFrame_rspBit (s : State) (f : Frame) : (s.withFrame f).rspBit = s.rspBit := rfl
@[simp] theorem State.withFrame_rstIn (s : State) (f : Frame) : (s.withFrame f).rstIn = s.rstIn := rfl
@[simp] theorem State.withFrame_cmdIn (s : State) (f : Frame) : (s.withFrame f).cmdIn = s.cmdIn := rfl
@[simp] theorem State.withFrame_draws (s : State) (f : Frame) : (s.withFrame f).draws = s.draws := rfl

@[simp] theorem State.withSeq_frame (s : State) (ph : Phase) (bi : Fin 27) (bt : Fin 8) (cnt : Nat) : (s.withSeq ph bi bt cnt).frame = s.frame := rfl
@[simp] theorem State.withSeq_template (s : State) (ph : Phase) (bi : Fin 27) (bt : Fin 8) (cnt : Nat) : (s.withSeq ph bi bt cnt).template = s.template := rfl
@[simp] theorem State.withSeq_ph (s : State) (ph : Phase) (bi : Fin 27) (bt : Fin 8) (cnt : Nat) : (s.withSeq ph bi bt cnt).ph = ph := rfl
@[simp] theorem State.withSeq_bi (s : State) (ph : Phase) (bi : Fin 27) (bt : Fin 8) (cnt : Nat) : (s.withSeq ph bi bt cnt).bi = bi := rfl
@[simp] theorem State.withSeq_bt (s : State) (ph : Phase) (bi : Fin 27) (bt : Fin 8) (cnt : Nat) : (s.withSeq ph bi bt cnt).bt = bt := rfl
@[simp] theorem State.withSeq_cnt (s : State) (ph : Phase) (bi : Fin 27) (bt : Fin 8) (cnt : Nat) : (s.withSeq ph bi bt cnt).cnt = cnt := rfl
@[simp] theorem State.withSeq_rspBit (s : State) (ph : Phase) (bi : Fin 27) (bt : Fin 8) (cnt : Nat) : (s.withSeq ph bi bt cnt).rspBit = s.rspBit := rfl
@[simp] theorem State.withSeq_rstIn (s : State) (ph : Phase) (bi : Fin 27) (bt : Fin 8) (cnt : Nat) : (s.withSeq ph bi bt cnt).rstIn = s.rstIn := rfl
@[simp] theorem State.withSeq_cmdIn (s : State) (ph : Phase) (bi : Fin 27) (bt : Fin 8) (cnt : Nat) : (s.withSeq ph bi bt cnt).cmdIn = s.cmdIn := rfl
@[simp] theorem State.withSeq_draws (s : State) (ph : Phase) (bi : Fin 27) (bt : Fin 8) (cnt : Nat) : (s.withSeq ph bi bt cnt).draws = s.draws := rfl

@[simp] theorem State.withRsp_frame (s : State) (b : Bool) : (s.withRsp b).frame = s.frame := rfl
@[simp] theorem State.withRsp_template (s : State) (b : Bool) : (s.withRsp b).template = s.template := rfl
@[simp] theorem State.withRsp_ph (s : State) (b : Bool) : (s.withRsp b).ph = s.ph := rfl
@[simp] theorem State.withRsp_bi (s : State) (b : Bool) : (s.withRsp b).bi = s.bi := rfl
@[simp] theorem State.withRsp_bt (s : State) (b : Bool) : (s.withRsp b).bt = s.bt := rfl
@[simp] theorem State.withRsp_cnt (s : State) (b : Bool) : (s.withRsp b).cnt = s.cnt := rfl
@[simp] theorem State.withRsp_rspBit (s : State) (b : Bool) : (s.withRsp b).rspBit = b := rfl
@[simp] theorem State.withRsp_rstIn (s : State) (b : Bool) : (s.withRsp b).rstIn = s.rstIn := rfl
@[simp] theorem State.withRsp_cmdIn (s : State) (b : Bool) : (s.withRsp b).cmdIn = s.cmdIn := rfl
@[simp] theorem State.withRsp_draws (s : State) (b : Bool) : (s.withRsp b).draws = s.draws := rfl

@[simp] theorem State.drawn_frame (s : State) : (s.drawn).frame = s.frame := rfl
@[simp] theorem State.drawn_template (s : State) : (s.drawn).template = s.template := rfl
@[simp] theorem State.drawn_ph (s : State) : (s.drawn).ph = s.ph := rfl
@[simp] theorem State.drawn_bi (s : State) : (s.drawn).bi = s.bi := rfl
@[simp] theorem State.drawn_bt (s : State) : (s.drawn).bt = s.bt := rfl
@[simp] theorem State.drawn_cnt (s : State) : (s.drawn).cnt = s.cnt := rfl
@[simp] theorem State.drawn_rspBit (s : State) : (s.drawn).rspBit = s.rspBit := rfl
@[simp] theorem State.drawn_rstIn (s : State) : (s.drawn).rstIn = s.rstIn := rfl
@[simp] theorem State.drawn_cmdIn (s : State) : (s.drawn).cmdIn = s.cmdIn := rfl
@[simp] theorem State.drawn_draws (s : State) : (s.drawn).draws = s.draws + 1 := rfl

@[simp] theorem State.loadReset_frame (s : State) : (s.loadReset).frame = s.template := rfl
@[simp] theorem State.loadReset_template (s : State) : (s.loadReset).template = s.template := rfl
@[simp] theorem State.loadReset_ph (s : State) : (s.loadReset).ph = .idle := rfl
@[simp] theorem State.loadReset_bi (s : State) : (s.loadReset).bi = 0 := rfl
@[simp] theorem State.loadReset_bt (s : State) : (s.loadReset).bt = 0 := rfl
@[simp] theorem State.loadReset_cnt (s : State) : (s.loadReset).cnt = 0 := rfl
@[simp] theorem State.loadReset_rspBit (s : State) : (s.loadReset).rspBit = s.rspBit := rfl
@[simp] theorem State.loadReset_rstIn (s : State) : (s.loadReset).rstIn = s.rstIn := rfl
@[simp] theorem State.loadReset_cmdIn (s : State) : (s.loadReset).cmdIn = s.cmdIn := rfl
@[simp] theorem State.loadReset_draws (s : State) : (s.loadReset).draws = s.draws := rfl

@[simp] theorem State.nextTick_frame (s : State) : (s.nextTick).frame = s.frame := rfl
@[simp] theorem State.nextTick_template (s : State) : (s.nextTick).template = s.template := rfl
@[simp] theorem State.nextTick_ph (s : State) : (s.nextTick).ph = s.ph := rfl
@[simp] theorem State.nextTick_bi (s : State) : (s.nextTick).bi = s.bi := rfl
@[simp] theorem State.nextTick_bt (s : State) : (s.nextTick).bt = s.bt := rfl
@[simp] theorem State.nextTick_cnt (s : State) : (s.nextTick).cnt = s.cnt := rfl
@[simp] theorem State.nextTick_rspBit (s : State) : (s.nextTick).rspBit = Config.rspIdle s.draws := rfl
@[simp] theorem State.nextTick_rstIn (s : State) : (s.nextTick).rstIn = s.rstIn.tail := rfl
@[simp] theorem State.nextTick_cmdIn (s : State) : (s.nextTick).cmdIn = nextOffers s := rfl
@[simp] theorem State.nextTick_draws (s : State) : (s.nextTick).draws = s.draws + 1 := rfl

end Sys2Proof.Machine
end

