-- ==== Sys2Proof/Laws/Ops.lean ====
section
/-!
SUPPORT. One lemma per shared operation: what it does, byte by byte, said once. In each, `j` is any byte index.
-/

namespace Sys2Proof.Machine

theorem getBit_inRange (f : Frame) (k : Fin 27) (i : Fin 8) : getBit f k i = some (frameBit f k i) := by
  simp [getBit, show k.val ≤ 26 by omega, show i.val ≤ 7 by omega]

theorem getBit_outOfRange (f : Frame) {k i : Nat} (h : ¬inRange k i) : getBit f k i = none := by
  simp [getBit, h]

theorem setBit_byte (f : Frame) (k : Fin 27) (i : Fin 8) (j : Nat) (hj : j < 27) :
    (setBit f k i)[j] = if k.val = j then f[j] ||| (1#8 <<< i.val) else f[j] := by
  have h : inRange k i := ⟨by omega, by omega⟩
  rw [setBit, dif_pos h, Vector.getElem_set]
  by_cases e : k.val = j
  · subst e; simp
  · simp [e]

theorem clearBit_byte (f : Frame) (k : Fin 27) (i : Fin 8) (j : Nat) (hj : j < 27) :
    (clearBit f k i)[j] = if k.val = j then f[j] &&& ~~~(1#8 <<< i.val) else f[j] := by
  have h : inRange k i := ⟨by omega, by omega⟩
  rw [clearBit, dif_pos h, Vector.getElem_set]
  by_cases e : k.val = j
  · subst e; simp
  · simp [e]

theorem writeBit_byte (f : Frame) (k : Fin 27) (i : Fin 8) (b : Bool) (j : Nat) (hj : j < 27) :
    (writeBit f k i b)[j] =
      if k.val = j then (if b then f[j] ||| (1#8 <<< i.val) else f[j] &&& ~~~(1#8 <<< i.val)) else f[j] := by
  cases b <;> simp [writeBit, setBit_byte, clearBit_byte]

/-- `bodySum` written out: the 18 bytes are 8 to 25. -/
theorem bodySum_eq (f : Frame) :
    bodySum f = ((List.finRange 18).map fun j => (f[8 + j.val]).toNat).sum := by
  obtain ⟨⟨l⟩, hl⟩ := f
  simp only [List.size_toArray] at hl
  match l, hl with
  | [_, _, _, _, _, _, _, _, _, _, _, _, _, _, _, _, _, _, _, _, _, _, _, _, _, _, _], _ => rfl

/-- The body sum sees only bytes 8 to 25. -/
theorem bodySum_congr {f g : Frame} (h : ∀ j (_ : j < 27), 8 ≤ j → j ≤ 25 → f[j] = g[j]) : bodySum f = bodySum g := by
  rw [bodySum_eq, bodySum_eq]
  congr 1
  refine List.map_congr_left fun j _ => ?_
  rw [h (8 + j.val) (by omega) (by omega) (by omega)]

theorem updateChecksum_byte (f : Frame) (j : Nat) (hj : j < 27) :
    (updateChecksum f)[j] = if j = 26 then checksum f else f[j] := by
  rw [updateChecksum, Vector.getElem_set]
  by_cases e : j = 26
  · subst e; rfl
  · rw [if_neg e, if_neg (by simp only [csumIdx]; omega)]

/-- A bit of a byte read as a number. -/
theorem frameBit_eq (f : Frame) (k : Fin 27) (i : Fin 8) :
    frameBit f k i = decide (f[k].toNat / 2 ^ i.val % 2 = 1) := by
  simp [frameBit, BitVec.getLsbD, Nat.testBit_eq_decide_div_mod_eq]

/-- A mutator's meaning is one transition of the frame. -/
theorem mutate_next (g : Frame → Frame) (s : State) : mutate g s = .next { s with frame := g s.frame } := rfl

/-- The end of an interval never writes the frame, the template, the ports or the response. -/
theorem nextInterval_only (s : State) :
    nextInterval s = s.withSeq (nextInterval s).ph (nextInterval s).bi (nextInterval s).bt (nextInterval s).cnt := by
  unfold nextInterval
  cases s.ph <;> simp only <;> repeat (first | rfl | split)

/-- A sequencer tick writes the sequencer position only. -/
theorem seqTick_only (s : State) :
    seqTick s = s.withSeq (seqTick s).ph (seqTick s).bi (seqTick s).bt (seqTick s).cnt := by
  unfold seqTick
  split
  · rfl
  · exact nextInterval_only s

end Sys2Proof.Machine
end

