-- ==== Sys2Proof/Laws/PerInstr.lean ====
section
/-!
SUPPORT. Statements made per command: the word of a well-formed command lies in its row of spec/opcode_table.json.
-/

namespace Sys2Proof.Laws.TableRow

/-- The word `encode` gives a well-formed command has the row's fixed bits: `word and mask = match` (R48 to R52). -/
def Statement (i : Instr) : Prop :=
  ∀ w, encode i = some w → w &&& rowMask i = rowMatch i

theorem setPower (on : Bool) : Statement (.setPower on) := by
  intro w h
  cases on <;> (cases h; decide)

set_option maxRecDepth 8192 in
theorem setTemp (value : Nat) (half : Bool) : Statement (.setTemp value half) := by
  intro w h
  simp only [encode, Instr.wellFormed, decide_eq_true_eq, Option.ite_none_right_eq_some, Option.some.injEq] at h
  obtain ⟨hv, rfl⟩ := h
  have all : ∀ v : Fin 256, ∀ b : Bool,
      BitVec.ofNat 16 (encodeNumber (.setTemp v b)) &&& rowMask (.setTemp v b) = rowMatch (.setTemp v b) := by decide
  exact all ⟨value, hv⟩ half

theorem setFan (mode : FanMode) : Statement (.setFan mode) := by
  intro w h
  cases mode <;> (cases h; decide)

theorem send : Statement .send := by
  intro w h
  cases h
  decide

set_option maxRecDepth 8192 in
theorem getBit (byteIndex bitIndex : Nat) : Statement (.getBit byteIndex bitIndex) := by
  intro w h
  simp only [encode, Instr.wellFormed, Bool.and_eq_true, decide_eq_true_eq, Option.ite_none_right_eq_some,
    Option.some.injEq] at h
  obtain ⟨⟨hk, hi⟩, rfl⟩ := h
  have all : ∀ k : Fin 32, ∀ b : Fin 16,
      BitVec.ofNat 16 (encodeNumber (.getBit k b)) &&& rowMask (.getBit k b) = rowMatch (.getBit k b) := by decide
  exact all ⟨byteIndex, hk⟩ ⟨bitIndex, hi⟩

end Sys2Proof.Laws.TableRow
end

