-- ==== Sys2Proof/Laws/Step.lean ====
section
/-!
SUPPORT. What a step can do, said once, and how runs unfold.
-/

namespace Sys2Proof.Machine

/-- The five meanings as updates of the state. -/
theorem exec_cases {i : Instr} {s t : State} (h : exec i s = .next t) :
    (isMutator i = true ∧ t = s.withFrame (commandFrame i s.frame)) ∨
    (i = .send ∧ t = s.withSeq .startMark 0 0 tStartMark) ∨
    (∃ k b v, i = .getBit k b ∧ getBit s.frame k b = some v ∧ t = s.withRsp v) ∨
    (∃ k b, i = .getBit k b ∧ getBit s.frame k b = none ∧ t = (s.withRsp (Config.getbitOor s.draws)).drawn) := by
  cases i with
  | setPower on => exact .inl ⟨rfl, (Host.Outcome.next.inj h).symm⟩
  | setTemp value half => exact .inl ⟨rfl, (Host.Outcome.next.inj h).symm⟩
  | setFan mode => exact .inl ⟨rfl, (Host.Outcome.next.inj h).symm⟩
  | send => exact .inr (.inl ⟨rfl, (Host.Outcome.next.inj h).symm⟩)
  | getBit k b =>
    refine .inr (.inr ?_)
    have e := (Host.Outcome.next.inj h).symm
    cases hv : getBit s.frame k b with
    | some v => exact .inl ⟨k, b, v, rfl, hv, by simpa [hv] using e⟩
    | none => exact .inr ⟨k, b, rfl, hv, by simpa [hv] using e⟩

/-- Every way a step can answer (R98): a reset tick, an idle tick with no effect, a command, a busy tick. -/
theorem step_cases {s t : State} (h : step s = .next t) :
    (rst s = true ∧ t = s.nextTick.loadReset) ∨
    (rst s = false ∧ s.ph = .idle ∧ (∀ w i, offer s = some w → decode w ≠ .ok i) ∧ t = s.nextTick) ∨
    (rst s = false ∧ s.ph = .idle ∧ ∃ w i, offer s = some w ∧ decode w = .ok i ∧ exec i s.nextTick = .next t) ∨
    (rst s = false ∧ s.ph ≠ .idle ∧ t = seqTick s.nextTick) := by
  unfold step at h
  split at h
  · next hr => exact .inl ⟨hr, (Host.Outcome.next.inj h).symm⟩
  · next hr =>
    have hr : rst s = false := by simpa using hr
    split at h
    · next hi =>
      split at h
      · next ho =>
        exact .inr (.inl ⟨hr, hi, by simp [ho], (Host.Outcome.next.inj h).symm⟩)
      · next w ho =>
        split at h
        · next i hd => exact .inr (.inr (.inl ⟨hr, hi, w, i, ho, hd, h⟩))
        · next e hd =>
          refine .inr (.inl ⟨hr, hi, fun w' i hw hk => ?_, (Host.Outcome.next.inj h).symm⟩)
          rw [ho] at hw
          cases hw
          rw [hd] at hk
          cases hk
    · next hi => exact .inr (.inr (.inr ⟨hr, hi, (Host.Outcome.next.inj h).symm⟩))

theorem stateAfter_succ {s t : State} (h : step s = .next t) (n : Nat) : stateAfter (n + 1) s = stateAfter n t := by
  simp [stateAfter, h]

theorem waveform_succ {s t : State} (h : step s = .next t) (n : Nat) :
    waveform (n + 1) s = irOut t :: waveform n t := by
  simp [waveform, h]

end Sys2Proof.Machine
end

