-- ==== Sys2Proof/Tests/Slice0.lean ====
section
/-!
SUPPORT. Tests against 95_test_vectors.md (V<n>, P<n> below), the smoke test of WellFormed, and for every statement of
Certificates/Slice0/Obligations.lean that has hypotheses a state or operands that meet them.
-/

namespace Sys2Proof.Tests

open Sys2Proof.Machine

/-- The fixture `T_TEST` of 95_test_vectors.md section 2; it is synthetic and not the real template. -/
def tTest : Frame :=
  #v[0x01, 0x23, 0x45, 0x67, 0x89, 0xAB, 0xCD, 0xEF, 0x10, 0x32, 0x54, 0x76, 0x98, 0x48, 0xA8, 0x80, 0xAF, 0x00, 0xFF,
     0x0E, 0xE0, 0x40, 0x00, 0x81, 0x5A, 0xC3, 0x8E]

/-- The sequencer at a position over `T_TEST`, the host presenting `cmd` in this tick. -/
def seqAt (ph : Phase) (bi : Fin 27) (bt : Fin 8) (cnt : Nat) (cmd : Option CmdWord) : State where
  frame := tTest
  template := tTest
  ph := ph
  bi := bi
  bt := bt
  cnt := cnt
  rspBit := false
  rstIn := []
  cmdIn := [cmd]
  draws := 0

/-- The idle block right after a reset, the host presenting `w`. -/
def idleWith (w : CmdWord) : State := seqAt .idle 0 0 0 (some w)

/-- A tick in the middle of the start-mark with `rst = 1` (V42). -/
def resetInMark : State := { seqAt .startMark 0 0 1501 (some 0x2115) with rstIn := [true] }

/-- Bytes 13, 14, 21, 26, as the vectors of section 3.4 list them. -/
def quad (f : Frame) : List Byte := [f[13], f[14], f[21], f[26]]

/-- The sequencer position of a state. -/
def position (s : State) : Phase × Nat × Nat × Nat := (s.ph, s.bi.val, s.bt.val, s.cnt)

/-! ### WellFormed, decode and encode -/

theorem test_wellFormed_smoke :
    Instr.wellFormed (.setTemp 255 true) = true ∧ Instr.wellFormed (.setTemp 272 true) = false ∧
    Instr.wellFormed (.getBit 31 15) = true ∧ Instr.wellFormed (.getBit 32 0) = false ∧
    Instr.wellFormed (.getBit 0 16) = false := by decide

/-- U8: what does not fit is not truncated (272 would read as 16). -/
theorem test_encode_never_truncates : encode (.setTemp 272 false) = none ∧ encode (.getBit 32 0) = none := by decide

/-- The words bit by bit from the "encoding" patterns of spec/opcode_table.json. -/
theorem test_decode_bit_by_bit :
    decode 0b0001000000000001 = .ok (.setPower true) ∧
    decode 0b0010000100011000 = .ok (.setTemp 24 true) ∧
    decode 0b0011000000000010 = .ok (.setFan .quiet) ∧
    decode 0b0100000000000000 = .ok .send ∧
    decode 0b0101000011111010 = .ok (.getBit 26 7) := ⟨rfl, rfl, rfl, rfl, rfl⟩

/-- V1, V3, V5, V8: the remaining legal words of section 3.1. -/
theorem test_decode_legal :
    decode 0x1000 = .ok (.setPower false) ∧ decode 0x2010 = .ok (.setTemp 16 false) ∧
    decode 0x20FF = .ok (.setTemp 255 false) ∧ decode 0x3000 = .ok (.setFan .auto) ∧
    decode 0x3001 = .ok (.setFan .powerfull) ∧ decode 0x500D = .ok (.getBit 13 0) ∧
    decode 0x501B = .ok (.getBit 27 0) ∧ decode 0x5100 = .ok (.getBit 0 8) ∧
    decode 0x51FF = .ok (.getBit 31 15) := ⟨rfl, rfl, rfl, rfl, rfl, rfl, rfl, rfl, rfl⟩

/-- V2, V4, V6, V7, V9: the illegal words of section 3.1, each by its reason. -/
theorem test_decode_illegal :
    decode 0x1002 = .error .reservedBit ∧ decode 0x2200 = .error .reservedBit ∧ decode 0x3003 = .error .fanMode ∧
    decode 0x3004 = .error .reservedBit ∧ decode 0x4001 = .error .reservedBit ∧ decode 0x5200 = .error .reservedBit ∧
    decode 0x0000 = .error .opcode ∧ decode 0x6000 = .error .opcode ∧ decode 0xF000 = .error .opcode ∧
    decode 0xFFFF = .error .opcode := ⟨rfl, rfl, rfl, rfl, rfl, rfl, rfl, rfl, rfl, rfl⟩

/-- R49, R52, R61: the encoder's words. -/
theorem test_encode_words :
    encode (.setPower true) = some 0x1001 ∧ encode (.setTemp 30 true) = some 0x211E ∧
    encode (.setFan .quiet) = some 0x3002 ∧ encode .send = some 0x4000 ∧ encode (.getBit 26 7) = some 0x50FA := by decide

theorem test_decodeTableWord :
    decodeTableWord 16 0x4000 = some .send ∧ decodeTableWord 16 0x3003 = none ∧
    decodeTableWord 32 0x14000 = none := by decide

/-! ### Micro-operations -/

/-- V14, V15. -/
theorem test_bit_writes :
    (setBit tTest 13 0)[13] = 0x49 ∧ (clearBit tTest 13 3)[13] = 0x40 ∧
    setBit tTest 27 0 = tTest ∧ setBit tTest 0 8 = tTest ∧ clearBit tTest 27 7 = tTest ∧ clearBit tTest 26 8 = tTest := by
  decide

/-- V16 to V19: checksums of fixed bodies (built into a frame whose other bytes do not matter). -/
theorem test_checksum :
    checksum tTest = 0x8E ∧ checksum (Vector.replicate 27 0x00) = 0x00 ∧ checksum (Vector.replicate 27 0xFF) = 0xEE ∧
    checksum ((Vector.replicate 27 0).set 8 0x80 |>.set 25 0x80) = 0x00 := by decide

/-! ### The commands, one tick each -/

/-- V20, V21. -/
theorem test_setPower :
    quad (stateAfter 1 (idleWith 0x1001)).frame = [0x49, 0xA8, 0x40, 0x8F] ∧
    quad (powerFrame false (fanFrame .quiet (powerFrame true tTest))) = [0x48, 0xA8, 0x40, 0x8E] := by decide

/-- V22, V23: 24.5 degrees, and half forced to 0 at 30. -/
theorem test_setTemp :
    quad (stateAfter 1 (idleWith 0x2118)).frame = [0x48, 0xB1, 0x40, 0x97] ∧
    quad (stateAfter 1 (idleWith 0x211E)).frame = [0x48, 0xBC, 0x40, 0xA2] := by decide

/-- V24: 31 and 15 leave the frame as it was. -/
theorem test_setTemp_rejected :
    (stateAfter 1 (idleWith 0x201F)).frame = tTest ∧ (stateAfter 1 (idleWith 0x210F)).frame = tTest := by decide

/-- V25, V27. -/
theorem test_setFan :
    quad (stateAfter 1 (idleWith 0x3002)).frame = [0x48, 0xA8, 0x60, 0xAE] ∧
    quad (fanFrame .powerfull (fanFrame .quiet tTest)) = [0x48, 0xA8, 0x41, 0x8F] := by decide

/-- V40, state `s_1`. -/
theorem test_send :
    position (stateAfter 1 (idleWith 0x4000)) = (.startMark, 0, 0, 3500) ∧
    (stateAfter 1 (idleWith 0x4000)).frame = tTest := by decide

/-- V10, V12: bit 3 of byte 13 and the last valid address read 1. -/
theorem test_getBit :
    (stateAfter 1 (idleWith 0x506D)).rspBit = true ∧ (stateAfter 1 (idleWith 0x50FA)).rspBit = true := by decide

/-- V13: out of range the frame is unchanged and the bit is the free value. -/
theorem test_getBit_outOfRange :
    exec (.getBit 27 0) (idleWith 0) = .next { idleWith 0 with rspBit := Config.getbitOor 0, draws := 1 } := rfl

/-! ### The sequencer and the trace -/

/-- V40: the ticks before `s_3501`, `s_5631`, `s_7361`, `s_98831`, `s_294861`. -/
theorem test_sequencer :
    position (stateAfter 1 (seqAt .startMark 0 0 1 none)) = (.startSpace, 0, 0, 1700) ∧
    position (stateAfter 1 (seqAt .bitMark 0 0 1 none)) = (.bitSpace, 0, 0, 1300) ∧
    position (stateAfter 1 (seqAt .bitMark 0 1 1 none)) = (.bitSpace, 0, 1, 440) ∧
    position (stateAfter 1 (seqAt .stopSpace 7 0 1 none)) = (.startMark, 8, 0, 3500) ∧
    position (stateAfter 1 (seqAt .stopSpace 26 0 1 none)) = (.idle, 0, 0, 0) := by decide

/-- V42: reset in the start-mark. -/
theorem test_reset_in_mark :
    position (stateAfter 1 resetInMark) = (.idle, 0, 0, 0) ∧ irOut (stateAfter 1 resetInMark) = false := by decide

/-- P5: a command presented during a transmission waits. -/
theorem test_command_waits :
    (stateAfter 1 (seqAt .startMark 0 0 3500 (some 0x2115))).cmdIn = [some 0x2115] ∧
    (stateAfter 1 (seqAt .startMark 0 0 3500 (some 0x2115))).frame = tTest := by decide

/-- V31: `BYTE(0x01)`. -/
theorem test_byte_intervals :
    (byteIntervals 0x01).map Prod.snd =
      [430, 1300, 430, 440, 430, 440, 430, 440, 430, 440, 430, 440, 430, 440, 430, 440] := by decide

/-- V35: intervals 128 to 135 of `TRACE(T_TEST)`. -/
theorem test_trace_join :
    ((trace tTest).drop 128).take 8 =
      [(true, 430), (false, 1300), (true, 430), (false, 10000), (true, 3500), (false, 1700), (true, 430), (false, 440)] := by
  decide

set_option maxRecDepth 8192 in
/-- V34. -/
theorem test_trace_duration : duration (trace tTest) = 294860 ∧ ones tTest = 88 := by decide

/-- Section 2: the status outputs of the fixture's reset state. -/
theorem test_status_outputs :
    stPower (idleWith 0) = false ∧ stTemp (idleWith 0) = 20 ∧ stHalf (idleWith 0) = false ∧ stFan (idleWith 0) = 0 := by
  decide

/-- A program comes to run: the word presented by `withFetchWord` is executed by the next step (log entry 4). -/
theorem test_withFetchWord :
    step (State.reset.withFetchWord 16 0x4000) = exec .send (State.reset.withFetchWord 16 0x4000).nextTick := rfl

/-! ### Witnesses of the statements' hypotheses -/

theorem witness_ResetTickLoadsTheResetState :
    rst resetInMark = true ∧ rst { resetInMark with rstIn := [true, true] }.nextTick.loadReset = true := by decide

theorem witness_StepRunsTheDecodedCommand :
    rst (idleWith 0x211E) = false ∧ (idleWith 0x211E).ph = .idle ∧ offer (idleWith 0x211E) = some 0x211E ∧
    decode 0x211E = .ok (.setTemp 30 true) := ⟨rfl, rfl, rfl, rfl⟩

theorem witness_TicksWithoutAnAcceptedCommand :
    (rst (seqAt .idle 0 0 0 none) = false ∧ offer (seqAt .idle 0 0 0 none) = none) ∧
    (rst (idleWith 0x3003) = false ∧ offer (idleWith 0x3003) = some 0x3003 ∧ decode 0x3003 = .error .fanMode) ∧
    (rst (seqAt .bitMark 3 4 200 none) = false ∧ (seqAt .bitMark 3 4 200 none).ph ≠ .idle) :=
  ⟨⟨rfl, rfl⟩, ⟨rfl, rfl, rfl⟩, ⟨rfl, by decide⟩⟩

theorem witness_WaitingCommandsAreHeld :
    (offer resetInMark = some 0x2115 ∧ cmdReady resetInMark = false) ∧
    cmdReady (idleWith 0x4000) = true ∧ offer (seqAt .bitMark 3 4 200 none) = none := by decide

theorem witness_DecodeOfEncodeIsTheCommand :
    Instr.wellFormed (.setTemp 255 true) = true ∧ Instr.wellFormed (.getBit 31 15) = true := by decide

theorem witness_EncodeOfDecodeIsTheWord : decode 0x51FF = .ok (.getBit 31 15) := rfl

theorem witness_LegalWordsDecodeToTheirFields :
    (0x1001#16 &&& 0xFFFE = 0x1000) ∧ (0x21FF#16 &&& 0xFE00 = 0x2000) ∧ (0x51FF#16 &&& 0xFE00 = 0x5000) := by decide

theorem witness_IllegalWordsAreDiscarded :
    rst (idleWith 0x0000) = false ∧ (idleWith 0x0000).ph = .idle ∧ offer (idleWith 0x0000) = some 0x0000 ∧
    decode 0x0000 = .error .opcode := ⟨rfl, rfl, rfl, rfl⟩

theorem witness_BitWritesChangeOneBit :
    ((26 : Nat) ≤ 26 ∧ (7 : Nat) ≤ 7) ∧ ((27 : Nat) ≤ 27 ∨ (8 : Nat) ≤ 0) ∧ ((27 : Nat) ≤ 0 ∨ (8 : Nat) ≤ 8) := by decide

theorem witness_GetBitDrivesTheResponseBit :
    ((26 : Nat) < 27 ∧ (7 : Nat) < 8) ∧ ((27 : Nat) ≤ 27 ∨ (8 : Nat) ≤ 7) ∧ ((27 : Nat) ≤ 26 ∨ (8 : Nat) ≤ 8) := by decide

theorem witness_ChecksumIsTheSumOfEighteenBytes :
    ∀ k : Fin 27, 8 ≤ k → k ≤ 25 → tTest[k] = (tTest.set 26 0)[k] := by decide

theorem witness_ChecksumReductionOrderIsImmaterial :
    ((tTest.toList.drop 8).take 18).reverse.Perm ((tTest.toList.drop 8).take 18) := List.reverse_perm _

theorem witness_SetTempWritesTemperatureOrNothing :
    ((15 : Nat) < 16 ∨ (30 : Nat) < 15) ∧ ((31 : Nat) < 16 ∨ (30 : Nat) < 31) ∧ ((16 : Nat) ≤ 16 ∧ (16 : Nat) ≤ 30) ∧
    ((16 : Nat) ≤ 30 ∧ (30 : Nat) ≤ 30) ∧ (255 : Nat) ≤ 255 := by decide

theorem witness_SendLoadsTheStartMark : accepted (idleWith 0x4000) = some 0x4000 := by decide

/-- One state for each clause of the table. -/
theorem witness_BusyTickFollowsTheSequencerTable :
    (∀ p ∈ [seqAt .startMark 0 0 3500 none, seqAt .startMark 0 0 1 none, seqAt .startSpace 8 0 1 none,
        seqAt .bitMark 26 7 1 none, seqAt .bitSpace 26 6 1 none, seqAt .bitSpace 8 7 1 none, seqAt .bitSpace 7 7 1 none,
        seqAt .bitSpace 26 7 1 none, seqAt .stopMark 26 0 1 none, seqAt .stopSpace 7 0 1 none,
        seqAt .stopSpace 26 0 1 none], p.ph ≠ .idle ∧ rst p = false) ∧
    1 < (seqAt .startMark 0 0 3500 none).cnt ∧ (seqAt .stopSpace 26 0 1 none).cnt ≤ 1 := by decide

theorem witness_IntervalsAreHeldForTheirDuration :
    (seqAt .startMark 0 0 3500 none).ph ≠ .idle ∧ 3499 < (seqAt .startMark 0 0 3500 none).cnt ∧
    ∀ b ∈ (seqAt .startMark 0 0 3500 none).rstIn.take 3499, b = false := by
  refine ⟨by decide, by decide, ?_⟩
  simp [seqAt]

theorem witness_CommandsWaitWhileBusy :
    busy (seqAt .stopSpace 26 0 1 (some 0x2115)) = true ∧ rst (seqAt .stopSpace 26 0 1 (some 0x2115)) = false ∧
    offer (seqAt .stopSpace 26 0 1 (some 0x2115)) = some 0x2115 := by decide

theorem witness_SequencerInvariantIsKept :
    SeqInv (seqAt .bitSpace 26 7 1300 none) ∧ ∃ t, step (seqAt .bitSpace 26 7 1300 none) = .next t :=
  ⟨by decide, _, rfl⟩

theorem witness_FrameInvariantIsKept :
    FrameInv (idleWith 0x1000) ∧ ∃ t, step (idleWith 0x1000) = .next t := ⟨by decide, _, rfl⟩

/-- For FourInvariantsHoldInEveryReachableState, TemplateBitsAreNeverWritten and ReachableFrameIsTheEncodersOutput. -/
theorem witness_reachable_states :
    AtReset (idleWith 0x1000) ∧ TemplateOk (idleWith 0x1000).template ∧
    (¬((14 : Fin 27) = 13 ∧ (6 : Fin 8) = 0) ∧ ¬((14 : Fin 27) = 14 ∧ (6 : Fin 8) ≤ 5) ∧
     ¬((14 : Fin 27) = 21 ∧ ((6 : Fin 8) = 0 ∨ (6 : Fin 8) = 5)) ∧ (14 : Fin 27) ≠ 26) := by decide

theorem witness_CommandsWriteOnlyTheirBits :
    (∃ t, exec (.setTemp 31 true) (idleWith 0) = .next t) ∧ mayWrite (.setTemp 31 true) 14 0 = false ∧
    isMutator (.setTemp 31 true) = true ∧ (∃ t, exec .send (idleWith 0) = .next t) ∧
    (∃ t, exec (.getBit 27 0) (idleWith 0) = .next t) :=
  ⟨⟨_, rfl⟩, by decide, rfl, ⟨_, rfl⟩, ⟨_, rfl⟩⟩

theorem witness_OnlyMutatorsAndResetChangeTheFrame :
    ∃ t, step (idleWith 0x1001) = .next t ∧ t.frame ≠ (idleWith 0x1001).frame := ⟨_, rfl, by decide⟩

theorem witness_OpenValuesReachOnlyTheResponseBit :
    (∃ t, step (idleWith 0x501B) = .next t) ∧
    ∃ u, step { idleWith 0x501B with rspBit := true, draws := 5 } = .next u := ⟨⟨_, rfl⟩, ⟨_, rfl⟩⟩

theorem witness_MutatorsAreIdempotentAbsorbAndCommute : (16 : Nat) ≤ 16 ∧ (16 : Nat) ≤ 30 ∧ (30 : Nat) ≤ 30 := by decide

theorem witness_ChecksumMovesWithTheFields : ChecksumOk tTest := by decide

theorem witness_ByteFourteenIsTemplateTemperatureHalf :
    frameBit (tTest.set 14 0x3C) 14 7 = false ∧ frameBit (tTest.set 14 0x3C) 14 6 = false := by decide

theorem witness_TransmissionEmitsTheTrace :
    accepted (idleWith 0x4000) = some 0x4000 ∧
    ∀ b ∈ (idleWith 0x4000).rstIn.tail.take (duration (trace (idleWith 0x4000).frame)), b = false :=
  ⟨by decide, by simp [idleWith, seqAt]⟩

theorem witness_BlockBecomesReadyAgain :
    SeqInv (seqAt .startMark 0 0 3500 none) ∧ ∀ b ∈ (seqAt .startMark 0 0 3500 none).rstIn, b = false := by decide

theorem witness_SessionsRefineTransactions :
    let session : List Instr := [.setTemp 24 true, .send, .getBit 27 0]
    let s : State := { idleWith 0 with cmdIn := session.map encode }
    (∀ i ∈ session, i.wellFormed = true) ∧ s.ph = .idle ∧ (∀ b ∈ s.rstIn, b = false) ∧
    s.cmdIn = session.map encode := by
  intro session s
  exact ⟨by decide, by decide, by decide, by decide⟩

end Sys2Proof.Tests
end

/-!
PROOFS of 00_scope.md's statements (O36, O47). First what a tick does, branch by branch, and how runs compose; then a
transmission as a list of pending intervals of which every busy tick plays one level; then a command, and by induction a
session of commands, as the transaction level's.
-/

namespace Sys2Proof.Machine

/-! ### What a command and a tick do -/

@[simp] theorem seqTick_frame (s : State) : (seqTick s).frame = s.frame := by rw [seqTick_only]; rfl
@[simp] theorem seqTick_rstIn (s : State) : (seqTick s).rstIn = s.rstIn := by rw [seqTick_only]; rfl
@[simp] theorem seqTick_cmdIn (s : State) : (seqTick s).cmdIn = s.cmdIn := by rw [seqTick_only]; rfl

/-- Every command completes (R109), and in the frame it does what the transaction does (R5). -/
theorem exec_next (i : Instr) (s : State) : ∃ t, exec i s = .next t ∧ t.frame = commandFrame i s.frame := by
  cases i with
  | setPower on => exact ⟨_, rfl, rfl⟩
  | setTemp value half => exact ⟨_, rfl, rfl⟩
  | setFan mode => exact ⟨_, rfl, rfl⟩
  | send => exact ⟨_, rfl, rfl⟩
  | getBit k b =>
    refine ⟨_, rfl, ?_⟩
    cases getBit s.frame k b <;> rfl

/-- No command touches the ports. -/
theorem exec_ports {i : Instr} {s t : State} (h : exec i s = .next t) : t.rstIn = s.rstIn ∧ t.cmdIn = s.cmdIn := by
  obtain ⟨-, rfl⟩ | ⟨-, rfl⟩ | ⟨_, _, _, -, -, rfl⟩ | ⟨_, _, -, -, rfl⟩ := exec_cases h <;> exact ⟨rfl, rfl⟩

/-- The reset branch of R98. -/
theorem step_reset {s : State} (hr : rst s = true) : step s = .next s.nextTick.loadReset := by
  simp [step, hr]

/-- The command branch of R98. -/
theorem step_command {s : State} {w : CmdWord} {i : Instr} (hr : rst s = false) (hi : s.ph = .idle)
    (ho : offer s = some w) (hd : decode w = .ok i) : step s = exec i s.nextTick := by
  simp [step, hr, hi, ho, hd]

/-- The idle branch of R98 when nothing is presented. -/
theorem step_idle {s : State} (hr : rst s = false) (hi : s.ph = .idle) (ho : offer s = none) :
    step s = .next s.nextTick := by
  simp [step, hr, hi, ho]

/-- The idle branch of R98 when an illegal word is presented (R54). -/
theorem step_illegal {s : State} {w : CmdWord} {e : Illegal} (hr : rst s = false) (hi : s.ph = .idle)
    (ho : offer s = some w) (hd : decode w = .error e) : step s = .next s.nextTick := by
  simp [step, hr, hi, ho, hd]

/-- The busy branch of R98. -/
theorem step_busy {s : State} (hr : rst s = false) (hb : s.ph ≠ .idle) : step s = .next (seqTick s.nextTick) := by
  simp [step, hr, hb]

/-- The block has no fault (R109): every step yields a next state. -/
theorem step_next (s : State) : ∃ t, step s = .next t := by
  cases hr : rst s with
  | true => exact ⟨_, step_reset hr⟩
  | false =>
    by_cases hi : s.ph = .idle
    · cases ho : offer s with
      | none => exact ⟨_, step_idle hr hi ho⟩
      | some w =>
        cases hd : decode w with
        | ok i =>
          obtain ⟨t, ht, -⟩ := exec_next i s.nextTick
          exact ⟨t, (step_command hr hi ho hd).trans ht⟩
        | error e => exact ⟨_, step_illegal hr hi ho hd⟩
    · exact ⟨_, step_busy hr hi⟩

/-- `rst` has a level of its own in every tick, whatever the tick does. -/
theorem step_rstIn {s t : State} (h : step s = .next t) : t.rstIn = s.rstIn.tail := by
  obtain ⟨-, rfl⟩ | ⟨-, -, -, rfl⟩ | ⟨-, -, _, _, -, -, he⟩ | ⟨-, -, rfl⟩ := step_cases h
  · rfl
  · rfl
  · exact (exec_ports he).1
  · simp

/-! ### Runs in two parts -/

theorem stateAfter_add (m n : Nat) (s : State) : stateAfter (m + n) s = stateAfter n (stateAfter m s) := by
  induction m generalizing s with
  | zero => rw [Nat.zero_add]; rfl
  | succ m ih =>
    obtain ⟨t, ht⟩ := step_next s
    rw [Nat.succ_add, stateAfter_succ ht, stateAfter_succ ht, ih]

theorem waveform_add (m n : Nat) (s : State) :
    waveform (m + n) s = waveform m s ++ waveform n (stateAfter m s) := by
  induction m generalizing s with
  | zero => rw [Nat.zero_add]; rfl
  | succ m ih =>
    obtain ⟨t, ht⟩ := step_next s
    rw [Nat.succ_add, waveform_succ ht, waveform_succ ht, stateAfter_succ ht, ih, List.cons_append]

theorem stateAfter_rstIn (n : Nat) (s : State) : (stateAfter n s).rstIn = s.rstIn.drop n := by
  induction n generalizing s with
  | zero => rfl
  | succ n ih =>
    obtain ⟨t, ht⟩ := step_next s
    rw [stateAfter_succ ht, ih, step_rstIn ht, List.drop_tail]

/-! ### The host's moves -/

/-- An idle tick without reset takes the offer (R96). -/
theorem nextOffers_idle {s : State} (hr : rst s = false) (hi : s.ph = .idle) : nextOffers s = s.cmdIn.tail := by
  simp [nextOffers, cmdReady, hr, hi]

/-- A host with a word to offer in every tick to come, or with none left, keeps its offers while the block is busy
(R102, R116). -/
theorem nextOffers_busy {s : State} (hb : s.ph ≠ .idle) (ho : ∀ o ∈ s.cmdIn, o.isSome = true) :
    nextOffers s = s.cmdIn := by
  cases hc : s.cmdIn with
  | nil => simp [nextOffers, offer, hc]
  | cons o rest => simp [nextOffers, offer, cmdReady, hc, hb, ho o (by simp [hc])]

/-- No reset is asserted in the next `n` ticks. -/
def NoReset (n : Nat) (s : State) : Prop := ∀ b ∈ s.rstIn.take n, b = false

theorem noReset_of_all {s : State} (h : ∀ b ∈ s.rstIn, b = false) (n : Nat) : NoReset n s :=
  fun b hb => h b (List.mem_of_mem_take hb)

theorem rst_of_noReset {n : Nat} {s : State} (h : NoReset (n + 1) s) : rst s = false := by
  cases hl : s.rstIn with
  | nil => simp [rst, hl]
  | cons b l => simpa [rst, hl] using h b (by simp [hl])

theorem noReset_step {n : Nat} {s t : State} (h : NoReset (n + 1) s) (ht : step s = .next t) : NoReset n t := by
  intro b hb
  rw [step_rstIn ht] at hb
  refine h b ?_
  cases hl : s.rstIn with
  | nil => simp [hl] at hb
  | cons c l => exact List.mem_cons_of_mem c (by simpa [hl] using hb)

/-! ### Waveform of a list of intervals -/

@[simp] theorem levels_nil : levels [] = [] := rfl

@[simp] theorem levels_cons (b : Bool) (n : Nat) (t : List Interval) :
    levels ((b, n) :: t) = List.replicate n b ++ levels t := rfl

theorem length_levels (t : List Interval) : (levels t).length = duration t := by
  simp [levels, duration, List.length_flatMap]

/-! ### What follows the interval being played -/

/-- The last byte of the subframe that byte `k` is in (R6). -/
def subframeEnd (k : Fin 27) : Fin 27 := if k ≤ hdrLast then hdrLast else bodyLast

/-- The bytes of that subframe after byte `k`. -/
def bytesAfter (f : Frame) (k : Fin 27) : List Byte := (f.toList.take (subframeEnd k + 1)).drop (k + 1)

/-- The intervals of byte `b` after those of its bit `i`. -/
def bitsAfter (b : Byte) (i : Fin 8) : List Interval :=
  ((List.range 8).drop (i + 1)).flatMap fun j => bitSymbol (b.getLsbD j)

/-- The intervals after the stop bit that follows byte `k`: the body subframe after the header's, else none. -/
def afterStop (f : Frame) (k : Fin 27) : List Interval :=
  if k = hdrLast then subframe (f.toList.drop 8) else []

/-- The intervals after those of bit `i` of byte `k`. -/
def afterBit (f : Frame) (k : Fin 27) (i : Fin 8) : List Interval :=
  bitsAfter f[k] i ++ ((bytesAfter f k).flatMap byteIntervals ++ (stopSymbol ++ afterStop f (subframeEnd k)))

/-- The intervals after the one being played, at a position of the sequencer (R100). -/
def toCome (f : Frame) (k : Fin 27) (i : Fin 8) : Phase → List Interval
  | .idle => []
  | .startMark => (false, tStartSpace) :: (bitSymbol (frameBit f k i) ++ afterBit f k i)
  | .startSpace => bitSymbol (frameBit f k i) ++ afterBit f k i
  | .bitMark => (false, bitSpace (frameBit f k i)) :: afterBit f k i
  | .bitSpace => afterBit f k i
  | .stopMark => (false, tStopSpace) :: afterStop f k
  | .stopSpace => afterStop f k

/-- What the block still has to play: the rest of the current interval, then those to come. -/
def pending (s : State) : List Interval :=
  if s.ph = .idle then [] else (irOut s, s.cnt) :: toCome s.frame s.bi s.bt s.ph

theorem pending_idle {s : State} (h : s.ph = .idle) : pending s = [] := by simp [pending, h]

theorem pending_busy {s : State} (h : s.ph ≠ .idle) :
    pending s = (irOut s, s.cnt) :: toCome s.frame s.bi s.bt s.ph := by simp [pending, h]

@[simp] theorem pending_nextTick (s : State) : pending s.nextTick = pending s := rfl

theorem byteIntervals_eq (b : Byte) : byteIntervals b = bitSymbol (b.getLsbD 0) ++ bitsAfter b 0 := rfl

theorem bitsAfter_succ (b : Byte) {i : Fin 8} (h : i < 7) :
    bitsAfter b i = bitSymbol (b.getLsbD (i + 1 : Fin 8)) ++ bitsAfter b (i + 1) := by
  have hv : (i + 1 : Fin 8).val = i.val + 1 := by omega
  rw [bitsAfter, List.drop_eq_getElem_cons (by simp; omega)]
  simp [bitsAfter, hv]

theorem bitsAfter_last (b : Byte) {i : Fin 8} (h : ¬i < 7) : bitsAfter b i = [] := by
  obtain rfl : i = 7 := by omega
  rfl

/-- The bytes of a subframe from byte `k` on. -/
theorem bytesFrom_eq (f : Frame) (k : Fin 27) :
    (f.toList.take (subframeEnd k + 1)).drop k = f[k] :: bytesAfter f k := by
  have hk : k ≤ subframeEnd k := by unfold subframeEnd hdrLast bodyLast; split <;> omega
  rw [List.drop_eq_getElem_cons (by simp; omega)]
  simp [bytesAfter]

theorem subframeEnd_succ {k : Fin 27} (h : k ≠ hdrLast ∧ k ≠ bodyLast) : subframeEnd (k + 1) = subframeEnd k := by
  revert k; decide

theorem bytesAfter_succ (f : Frame) {k : Fin 27} (h : k ≠ hdrLast ∧ k ≠ bodyLast) :
    bytesAfter f k = f[k + 1] :: bytesAfter f (k + 1) := by
  have hv : (k + 1 : Fin 27).val = k.val + 1 := by have := h.2; unfold bodyLast at this; omega
  rw [← bytesFrom_eq, subframeEnd_succ h, hv]; rfl

theorem subframeEnd_last {k : Fin 27} (h : ¬(k ≠ hdrLast ∧ k ≠ bodyLast)) : subframeEnd k = k := by
  revert k; decide

theorem bytesAfter_last (f : Frame) {k : Fin 27} (h : ¬(k ≠ hdrLast ∧ k ≠ bodyLast)) : bytesAfter f k = [] := by
  rw [bytesAfter, subframeEnd_last h]
  exact List.drop_eq_nil_of_le (by simp)

/-- The next bit of the same byte follows. -/
theorem afterBit_bit (f : Frame) (k : Fin 27) {i : Fin 8} (h : i < 7) :
    afterBit f k i = bitSymbol (frameBit f k (i + 1)) ++ afterBit f k (i + 1) := by
  rw [afterBit, bitsAfter_succ _ h, List.append_assoc]; rfl

/-- The next byte of the same subframe follows. -/
theorem afterBit_byte (f : Frame) {k : Fin 27} {i : Fin 8} (hi : ¬i < 7) (hk : k ≠ hdrLast ∧ k ≠ bodyLast) :
    afterBit f k i = bitSymbol (frameBit f (k + 1) 0) ++ afterBit f (k + 1) 0 := by
  rw [afterBit, bitsAfter_last _ hi, bytesAfter_succ f hk, List.flatMap_cons, byteIntervals_eq, afterBit,
    subframeEnd_succ hk]
  simp [frameBit]

/-- The stop bit follows. -/
theorem afterBit_stop (f : Frame) {k : Fin 27} {i : Fin 8} (hi : ¬i < 7) (hk : ¬(k ≠ hdrLast ∧ k ≠ bodyLast)) :
    afterBit f k i = stopSymbol ++ afterStop f k := by
  rw [afterBit, bitsAfter_last _ hi, bytesAfter_last f hk, subframeEnd_last hk]; rfl

/-- A start mark before byte `k` begins the subframe of the bytes from `k` on. -/
theorem startMark_toCome (f : Frame) (k : Fin 27) :
    (true, tStartMark) :: toCome f k 0 .startMark =
      subframe ((f.toList.take (subframeEnd k + 1)).drop k) ++ afterStop f (subframeEnd k) := by
  rw [bytesFrom_eq, subframe, List.flatMap_cons, byteIntervals_eq]
  simp [toCome, startSymbol, afterBit, frameBit]

theorem startMark_toCome_header (f : Frame) : (true, tStartMark) :: toCome f 0 0 .startMark = trace f :=
  startMark_toCome f 0

theorem startMark_toCome_body (f : Frame) :
    (true, tStartMark) :: toCome f 8 0 .startMark = subframe (f.toList.drop 8) := by
  have h := startMark_toCome f 8
  rwa [show subframeEnd 8 = bodyLast from rfl, show afterStop f bodyLast = [] from rfl, List.append_nil,
    List.take_of_length_le (by simp [bodyLast])] at h

/-! ### The sequencer plays what is pending -/

/-- The end of an interval begins the first of those to come, or ends the transmission. -/
theorem pending_nextInterval {s : State} (hb : s.ph ≠ .idle) :
    pending (nextInterval s) = toCome s.frame s.bi s.bt s.ph := by
  unfold nextInterval
  cases hp : s.ph with
  | idle => exact absurd hp hb
  | startMark => rfl
  | startSpace => rfl
  | bitMark => rfl
  | bitSpace =>
    simp only [toCome]
    split
    next hi => rw [afterBit_bit _ _ hi]; rfl
    next hi =>
      split
      next hk => rw [afterBit_byte _ hi hk]; rfl
      next hk => rw [afterBit_stop _ hi hk]; rfl
  | stopMark => rfl
  | stopSpace =>
    simp only [toCome, afterStop]
    split
    · exact startMark_toCome_body s.frame
    · rfl

/-- One tick plays one level of what is pending. -/
theorem levels_pending {s : State} (hb : s.ph ≠ .idle) (hc : 0 < s.cnt) :
    levels (pending s) = irOut s :: levels (pending (seqTick s)) := by
  by_cases h : 1 < s.cnt
  · have ht : seqTick s = s.withSeq s.ph s.bi s.bt (s.cnt - 1) := if_pos h
    have hp : pending (s.withSeq s.ph s.bi s.bt (s.cnt - 1)) = (irOut s, s.cnt - 1) :: toCome s.frame s.bi s.bt s.ph :=
      pending_busy hb
    rw [ht, hp, pending_busy hb, levels_cons, levels_cons, ← List.cons_append, ← List.replicate_succ,
      Nat.sub_add_cancel hc]
  · have ht : seqTick s = nextInterval s := if_neg h
    rw [ht, pending_nextInterval hb, pending_busy hb, levels_cons, show s.cnt = 1 by omega]
    rfl

theorem duration_pending {s : State} (hb : s.ph ≠ .idle) (hc : 0 < s.cnt) :
    duration (pending s) = duration (pending (seqTick s)) + 1 := by
  rw [← length_levels, levels_pending hb hc, List.length_cons, length_levels]

/-- A busy block has ticks left in its interval (part of R97). -/
def CntPos (s : State) : Prop := s.ph ≠ .idle → 0 < s.cnt

theorem cntPos_of_idle {s : State} (h : s.ph = .idle) : CntPos s := fun hb => absurd h hb

theorem cntPos_withSeq (s : State) (ph : Phase) (bi : Fin 27) (bt : Fin 8) {cnt : Nat} (h : 0 < cnt) :
    CntPos (s.withSeq ph bi bt cnt) := fun _ => h

theorem bitSpace_pos (b : Bool) : 0 < bitSpace b := by cases b <;> decide

theorem cntPos_nextInterval (s : State) : CntPos (nextInterval s) := by
  unfold nextInterval
  cases hp : s.ph with
  | idle => exact cntPos_of_idle hp
  | startMark => exact cntPos_withSeq _ _ _ _ (by decide)
  | startSpace => exact cntPos_withSeq _ _ _ _ (by decide)
  | bitMark => exact cntPos_withSeq _ _ _ _ (bitSpace_pos _)
  | bitSpace =>
    simp only
    split_ifs
    · exact cntPos_withSeq _ _ _ _ (by decide)
    · exact cntPos_withSeq _ _ _ _ (by decide)
    · exact cntPos_withSeq _ _ _ _ (by decide)
  | stopMark => exact cntPos_withSeq _ _ _ _ (by decide)
  | stopSpace =>
    simp only
    split_ifs
    · exact cntPos_withSeq _ _ _ _ (by decide)
    · exact cntPos_of_idle rfl

theorem cntPos_seqTick (s : State) : CntPos (seqTick s) := by
  unfold seqTick
  split
  · next h => exact cntPos_withSeq _ _ _ _ (Nat.sub_pos_of_lt h)
  · exact cntPos_nextInterval s

/-- Induction over a transmission: what holds of an idle block, and of a busy one if it holds after its tick, holds of
every block over the ticks of what it has to play, if no reset comes in between. -/
theorem transmission_induction {P : Nat → State → Prop} (idle : ∀ s, s.ph = .idle → P 0 s)
    (tick : ∀ n s, s.ph ≠ .idle → 0 < s.cnt → step s = .next (seqTick s.nextTick) →
      duration (pending (seqTick s.nextTick)) = n → P n (seqTick s.nextTick) → P (n + 1) s)
    (s : State) (hc : CntPos s) (hr : NoReset (duration (pending s)) s) : P (duration (pending s)) s := by
  generalize hn : duration (pending s) = n at hr ⊢
  induction n generalizing s with
  | zero =>
    refine idle s (by_contra fun hb => ?_)
    rw [duration_pending hb (hc hb)] at hn
    exact absurd hn (Nat.succ_ne_zero _)
  | succ n ih =>
    have hb : s.ph ≠ .idle := fun hi => by simp [pending_idle hi, duration] at hn
    have ht := step_busy (rst_of_noReset hr) hb
    have hd : duration (pending (seqTick s.nextTick)) = n :=
      Nat.succ.inj ((duration_pending (s := s.nextTick) hb (hc hb)).symm.trans hn)
    exact tick n s hb (hc hb) ht hd (ih _ (cntPos_seqTick _) hd (noReset_step hr ht))

section Transmission
variable {s : State} (hc : CntPos s) (hr : NoReset (duration (pending s)) s)
include hc hr

/-- The block plays what is pending, then goes off (R100, R103). -/
theorem waveform_pending : irOut s :: waveform (duration (pending s)) s = levels (pending s) ++ [false] := by
  refine transmission_induction (P := fun n s => irOut s :: waveform n s = levels (pending s) ++ [false])
    (fun s hi => ?_) (fun n s hb hp ht _ ih => ?_) s hc hr
  · simp [pending_idle hi, irOut, hi, markPhase, waveform]
  · rw [waveform_succ ht, ih, ← pending_nextTick s, levels_pending (s := s.nextTick) hb hp]; rfl

/-- After what is pending the block is idle. -/
theorem stateAfter_pending_ph : (stateAfter (duration (pending s)) s).ph = .idle := by
  refine transmission_induction (P := fun n s => (stateAfter n s).ph = .idle)
    (fun _ hi => hi) (fun n s _ _ ht _ ih => ?_) s hc hr
  rwa [stateAfter_succ ht]

/-- A transmission does not write the frame. -/
theorem stateAfter_pending_frame : (stateAfter (duration (pending s)) s).frame = s.frame := by
  refine transmission_induction (P := fun n s => (stateAfter n s).frame = s.frame)
    (fun _ _ => rfl) (fun n s _ _ ht _ ih => ?_) s hc hr
  rw [stateAfter_succ ht, ih, seqTick_frame, State.nextTick_frame]

/-- The offers wait for the end of a transmission (R102, R127). -/
theorem stateAfter_pending_cmdIn (ho : ∀ o ∈ s.cmdIn, o.isSome = true) :
    (stateAfter (duration (pending s)) s).cmdIn = s.cmdIn := by
  refine transmission_induction
    (P := fun n s => (∀ o ∈ s.cmdIn, o.isSome = true) → (stateAfter n s).cmdIn = s.cmdIn)
    (fun _ _ _ => rfl) (fun n s hb _ ht _ ih ho => ?_) s hc hr ho
  have hk : (seqTick s.nextTick).cmdIn = s.cmdIn := by
    rw [seqTick_cmdIn, State.nextTick_cmdIn, nextOffers_busy hb ho]
  rw [stateAfter_succ ht, ih (hk ▸ ho), hk]

end Transmission

/-! ### The command word -/

theorem field_ofNat {n : Nat} (h : n < 65536) (hi lo : Nat) :
    field (BitVec.ofNat 16 n) hi lo = n / 2 ^ lo % 2 ^ (hi + 1 - lo) := by
  rw [field, BitVec.toNat_ofNat, Nat.mod_eq_of_lt h]

theorem decode_setTemp {value : Nat} (half : Bool) (hv : value < 256) :
    decode (BitVec.ofNat 16 (encodeNumber (.setTemp value half))) = .ok (.setTemp value half) := by
  have hb := half.toNat_le
  generalize hn : encodeNumber (.setTemp value half) = n
  simp only [encodeNumber] at hn
  have hop : n / 2 ^ 12 % 2 ^ (15 + 1 - 12) = 2 := by omega
  have hres : n / 2 ^ 9 % 2 ^ (11 + 1 - 9) = 0 := by omega
  have hval : n / 2 ^ 0 % 2 ^ (7 + 1 - 0) = value := by omega
  have hhalf : n / 2 ^ 8 % 2 ^ (8 + 1 - 8) = half.toNat := by omega
  simp only [decode, field_ofNat (show n < 65536 by omega), hop, hres, hval, hhalf, if_true]
  cases half <;> rfl

theorem decode_getBit {k b : Nat} (hk : k < 32) (hb : b < 16) :
    decode (BitVec.ofNat 16 (encodeNumber (.getBit k b))) = .ok (.getBit k b) := by
  generalize hn : encodeNumber (.getBit k b) = n
  simp only [encodeNumber] at hn
  have hop : n / 2 ^ 12 % 2 ^ (15 + 1 - 12) = 5 := by omega
  have hres : n / 2 ^ 9 % 2 ^ (11 + 1 - 9) = 0 := by omega
  have hbyte : n / 2 ^ 0 % 2 ^ (4 + 1 - 0) = k := by omega
  have hbit : n / 2 ^ 5 % 2 ^ (8 + 1 - 5) = b := by omega
  simp only [decode, field_ofNat (show n < 65536 by omega), hop, hres, hbyte, hbit, if_true]

/-- R63: the decoder reads back a well-formed command from its word. -/
theorem decode_encode {i : Instr} (h : i.wellFormed = true) : ∃ w, encode i = some w ∧ decode w = .ok i := by
  refine ⟨_, if_pos h, ?_⟩
  cases i with
  | setPower on => cases on <;> rfl
  | setTemp value half => exact decode_setTemp half (of_decide_eq_true h)
  | setFan mode => cases mode <;> rfl
  | send => rfl
  | getBit k b =>
    obtain ⟨hk, hb⟩ : k < 32 ∧ b < 16 := by simpa [Instr.wellFormed] using h
    exact decode_getBit hk hb

/-- The words of well-formed commands are all there to be offered. -/
theorem encode_isSome_of_mem {session : List Instr} (h : ∀ i ∈ session, i.wellFormed = true) :
    ∀ o ∈ session.map encode, o.isSome = true := by
  intro o ho
  obtain ⟨i, hi, rfl⟩ := List.mem_map.1 ho
  simp [encode, h i hi]

/-! ### Commands and sessions as transactions -/

/-- A mutator emits nothing (R77). -/
theorem commandTrace_mutator {i : Instr} (h : isMutator i = true) (f : Frame) : commandTrace i f = [] := by
  cases i with
  | setPower on => rfl
  | setTemp value half => rfl
  | setFan mode => rfl
  | send => cases h
  | getBit k b => cases h

/-- From an idle block, what is pending after a command is the trace of its transaction. -/
theorem exec_pending {i : Instr} {s t : State} (hi : s.ph = .idle) (h : exec i s = .next t) :
    CntPos t ∧ pending t = commandTrace i s.frame := by
  obtain ⟨hm, rfl⟩ | ⟨rfl, rfl⟩ | ⟨k, b, v, rfl, -, rfl⟩ | ⟨k, b, rfl, -, rfl⟩ := exec_cases h
  · exact ⟨cntPos_of_idle hi, by rw [pending_idle (by simpa using hi), commandTrace_mutator hm]⟩
  · exact ⟨cntPos_withSeq _ _ _ _ (by decide), startMark_toCome_header s.frame⟩
  · exact ⟨cntPos_of_idle hi, pending_idle hi⟩
  · exact ⟨cntPos_of_idle hi, pending_idle hi⟩

/-- One command at the tick level is its transaction (R39, R104), from its acceptance to the next idle state. -/
theorem command_refines {i : Instr} {rest : List Instr} {s : State}
    (hwf : ∀ j ∈ i :: rest, j.wellFormed = true) (hi : s.ph = .idle) (hr : ∀ b ∈ s.rstIn, b = false)
    (hcmd : s.cmdIn = (i :: rest).map encode) :
    let u := stateAfter (commandTicks i s.frame) s
    u.frame = commandFrame i s.frame ∧ u.ph = .idle ∧ u.cmdIn = rest.map encode ∧
    waveform (commandTicks i s.frame) s = commandWave i s.frame := by
  obtain ⟨w, hw, hd⟩ := decode_encode (hwf i List.mem_cons_self)
  have hr0 := rst_of_noReset (noReset_of_all hr 1)
  obtain ⟨t, hex, hframe⟩ := exec_next i s.nextTick
  have hstep : step s = .next t :=
    (step_command hr0 hi (by simp [offer, hcmd, hw]) hd).trans hex
  obtain ⟨hpos, hpend⟩ := exec_pending (s := s.nextTick) hi hex
  rw [State.nextTick_frame] at hframe hpend
  have hcmdt : t.cmdIn = rest.map encode := by
    rw [(exec_ports hex).2, State.nextTick_cmdIn, nextOffers_idle hr0 hi, hcmd]; rfl
  have hrt : NoReset (duration (pending t)) t :=
    noReset_of_all (fun b hb => hr b (List.mem_of_mem_tail (step_rstIn hstep ▸ hb))) _
  have hsome : ∀ o ∈ t.cmdIn, o.isSome = true :=
    hcmdt ▸ encode_isSome_of_mem fun j hj => hwf j (List.mem_cons_of_mem i hj)
  rw [commandTicks, commandWave, ← hpend, stateAfter_succ hstep, waveform_succ hstep]
  exact ⟨(stateAfter_pending_frame hpos hrt).trans hframe, stateAfter_pending_ph hpos hrt,
    (stateAfter_pending_cmdIn hpos hrt hsome).trans hcmdt, waveform_pending hpos hrt⟩

/-- Settles O36, command by command. -/
theorem execGivesTheTransactionsFrame : Obligations.ExecGivesTheTransactionsFrame := exec_next

/-- Settles O47, by induction on the session: a command is its transaction, and leaves the block idle with the words of
the rest on offer. -/
theorem sessionsRefineTransactions : Obligations.SessionsRefineTransactions := by
  intro session
  induction session with
  | nil => exact fun s _ hi _ hcmd => ⟨rfl, hi, hcmd, rfl⟩
  | cons i rest ih =>
    intro s hwf hi hr hcmd
    obtain ⟨hframe, hidle, hrest, hwave⟩ := command_refines hwf hi hr hcmd
    have hru : ∀ b ∈ (stateAfter (commandTicks i s.frame) s).rstIn, b = false := fun b hb =>
      hr b (List.mem_of_mem_drop (stateAfter_rstIn _ s ▸ hb))
    have hlater := ih _ (fun j hj => hwf j (List.mem_cons_of_mem i hj)) hidle hru hrest
    rw [hframe] at hlater
    simp only [← stateAfter_add] at hlater
    obtain ⟨hframe', hidle', hdone, hwave'⟩ := hlater
    refine ⟨hframe', hidle', hdone, ?_⟩
    rw [sessionTicks, waveform_add, hwave, hwave', sessionWave]

end Sys2Proof.Machine

/-!
PROOFS of 10_state.md's statements (O30, O1, O21, O29). First what each mutator does to every bit of the frame (R78 to
R80); from that what a command does to the checksum, the fields and the header; then one induction over runs: what holds
of the template and is kept by every command holds of the frame in every reachable state.
-/

namespace Sys2Proof.Machine

/-! ### Bit accesses, bit by bit -/

theorem getLsbD_one_shiftLeft (i : Nat) (j : Fin 8) : (1#8 <<< i).getLsbD j = decide (j.val = i) := by
  rw [← BitVec.twoPow_eq, BitVec.getLsbD_twoPow]
  grind

theorem frameBit_setBit (f : Frame) (k i : Nat) (k' : Fin 27) (i' : Fin 8) :
    frameBit (setBit f k i) k' i' = if k'.val = k ∧ i'.val = i then true else frameBit f k' i' := by
  by_cases h : inRange k i
  · have hb := setBit_byte f ⟨k, by omega⟩ ⟨i, by omega⟩ k' k'.isLt
    simp only [frameBit, Fin.getElem_fin] at hb ⊢
    grind [getLsbD_one_shiftLeft]
  · rw [setBit, dif_neg h, if_neg (by omega)]

theorem frameBit_clearBit (f : Frame) (k i : Nat) (k' : Fin 27) (i' : Fin 8) :
    frameBit (clearBit f k i) k' i' = if k'.val = k ∧ i'.val = i then false else frameBit f k' i' := by
  by_cases h : inRange k i
  · have hb := clearBit_byte f ⟨k, by omega⟩ ⟨i, by omega⟩ k' k'.isLt
    simp only [frameBit, Fin.getElem_fin] at hb ⊢
    grind [getLsbD_one_shiftLeft]
  · rw [clearBit, dif_neg h, if_neg (by omega)]

theorem frameBit_writeBit (f : Frame) (k i : Nat) (b : Bool) (k' : Fin 27) (i' : Fin 8) :
    frameBit (writeBit f k i b) k' i' = if k'.val = k ∧ i'.val = i then b else frameBit f k' i' := by
  cases b with
  | false => exact frameBit_clearBit f k i k' i'
  | true => exact frameBit_setBit f k i k' i'

theorem frameBit_updateChecksum (f : Frame) {k : Fin 27} (hk : k ≠ 26) (i : Fin 8) :
    frameBit (updateChecksum f) k i = frameBit f k i := by
  have h26 : k.val ≠ 26 := fun h => hk (Fin.ext h)
  simp only [frameBit, Fin.getElem_fin, updateChecksum_byte f k k.isLt, if_neg h26]

/-- A byte is its eight bits. -/
theorem byte_eq_of_frameBit_eq {f g : Frame} {k : Fin 27} (h : ∀ i, frameBit f k i = frameBit g k i) : f[k] = g[k] :=
  BitVec.eq_of_getLsbD_eq fun i hi => h ⟨i, hi⟩

/-! ### The mutators, bit by bit (byte 26 aside) -/

/-- R78. -/
theorem frameBit_powerFrame (on : Bool) (f : Frame) {k : Fin 27} (hk : k ≠ 26) (i : Fin 8) :
    frameBit (powerFrame on f) k i =
      if k = 13 ∧ i = 0 then on
      else if on = false ∧ k = 21 ∧ (i = 0 ∨ i = 5) then false
      else frameBit f k i := by
  cases on with
  | true =>
    have h : powerFrame true f = updateChecksum (setBit f 13 0) := rfl
    rw [h, frameBit_updateChecksum _ hk, frameBit_setBit]
    grind
  | false =>
    have h : powerFrame false f = updateChecksum (clearBit (clearBit (clearBit f 13 0) 21 0) 21 5) := rfl
    rw [h, frameBit_updateChecksum _ hk]
    simp only [frameBit_clearBit]
    grind

/-- R79, the temperature bits. -/
theorem frameBit_writeTemp (f : Frame) (value : Nat) (k : Fin 27) (i : Fin 8) :
    frameBit (writeTemp f value) k i =
      if k = 14 ∧ 1 ≤ i ∧ i ≤ 5 then value.testBit (i - 1) else frameBit f k i := by
  have h : writeTemp f value = writeBit (writeBit (writeBit (writeBit (writeBit f 14 1 (value.testBit 0))
    14 2 (value.testBit 1)) 14 3 (value.testBit 2)) 14 4 (value.testBit 3)) 14 5 (value.testBit 4) := rfl
  rw [h]
  simp only [frameBit_writeBit]
  by_cases hk : k = 14
  · subst hk; fin_cases i <;> rfl
  · have hk' : k.val ≠ 14 := fun h => hk (Fin.ext h)
    simp only [hk, hk', false_and, if_false]

/-- R79, an accepted value. -/
theorem frameBit_tempFrame {value : Nat} (hv : tempAccepted value) (half : Bool) (f : Frame) {k : Fin 27} (hk : k ≠ 26)
    (i : Fin 8) :
    frameBit (tempFrame value half f) k i =
      if k = 14 ∧ i = 0 then storedHalf value half
      else if k = 14 ∧ 1 ≤ i ∧ i ≤ 5 then value.testBit (i - 1)
      else frameBit f k i := by
  have h : tempFrame value half f = updateChecksum (writeBit (writeTemp f value) 14 0 (storedHalf value half)) :=
    if_pos hv
  rw [h, frameBit_updateChecksum _ hk, frameBit_writeBit, frameBit_writeTemp]
  grind

/-- R79, a rejected value. -/
theorem tempFrame_rejected {value : Nat} (hv : ¬tempAccepted value) (half : Bool) (f : Frame) :
    tempFrame value half f = f := if_neg hv

/-- R80. -/
theorem frameBit_fanFrame (mode : FanMode) (f : Frame) {k : Fin 27} (hk : k ≠ 26) (i : Fin 8) :
    frameBit (fanFrame mode f) k i =
      if k = 21 ∧ i = 0 then fanPowerfull mode
      else if k = 21 ∧ i = 5 then fanQuiet mode
      else frameBit f k i := by
  have h : fanFrame mode f = updateChecksum (match mode with
    | .auto => clearBit (clearBit f 21 0) 21 5
    | .powerfull => setBit (clearBit (clearBit f 21 0) 21 5) 21 0
    | .quiet => setBit (clearBit (clearBit f 21 0) 21 5) 21 5) := by cases mode <;> rfl
  rw [h, frameBit_updateChecksum _ hk]
  cases mode <;> (simp only [frameBit_clearBit, frameBit_setBit, fanPowerfull, fanQuiet]; grind)

/-- R44: a command leaves every bit outside its write set. -/
theorem frameBit_commandFrame {c : Instr} {k : Fin 27} {i : Fin 8} (h : mayWrite c k i = false) (f : Frame) :
    frameBit (commandFrame c f) k i = frameBit f k i := by
  cases c with
  | setPower on =>
    have hk : k ≠ 26 := by grind [mayWrite]
    rw [commandFrame, frameBit_powerFrame on f hk]
    grind [mayWrite]
  | setTemp value half =>
    by_cases hv : tempAccepted value
    · have hr : 16 ≤ value ∧ value ≤ 30 := hv
      have hk : k ≠ 26 := by grind [mayWrite]
      rw [commandFrame, frameBit_tempFrame hv half f hk]
      grind [mayWrite]
    · rw [commandFrame, tempFrame_rejected hv]
  | setFan mode =>
    have hk : k ≠ 26 := by grind [mayWrite]
    rw [commandFrame, frameBit_fanFrame mode f hk]
    grind [mayWrite]
  | send => rfl
  | getBit k' i' => rfl

/-- No command writes a header byte (R24). -/
theorem commandFrame_header (c : Instr) (f : Frame) {k : Fin 27} (hk : k ≤ 7) : (commandFrame c f)[k] = f[k] := by
  refine byte_eq_of_frameBit_eq fun i => frameBit_commandFrame ?_ f
  cases c <;> grind [mayWrite]

/-! ### The checksum -/

/-- R75: after `updateChecksum` byte 26 is the checksum, whatever it held before. -/
theorem checksumOk_updateChecksum (f : Frame) : ChecksumOk (updateChecksum f) := by
  have hc : csum (updateChecksum f) = checksum f := updateChecksum_byte f 26 (by decide)
  have hb : bodySum (updateChecksum f) = bodySum f :=
    bodySum_congr fun j hj _ h25 => by rw [updateChecksum_byte f j hj, if_neg (by omega)]
  rw [ChecksumOk, hc, hb, checksum, BitVec.toNat_ofNat]

/-- R25: a command keeps the checksum; a mutator that writes anything writes it last. -/
theorem checksumOk_commandFrame (c : Instr) {f : Frame} (h : ChecksumOk f) : ChecksumOk (commandFrame c f) := by
  cases c with
  | setPower on => exact checksumOk_updateChecksum _
  | setTemp value half =>
    rw [commandFrame, tempFrame]
    split
    · exact checksumOk_updateChecksum _
    · exact h
  | setFan mode => exact checksumOk_updateChecksum _
  | send => exact h
  | getBit k i => exact h

/-! ### The fields -/

theorem temp_getLsbD (f : Frame) (j : Fin 5) : (temp f).getLsbD j = frameBit f 14 ⟨j + 1, by omega⟩ := by
  simp [temp, frameBit, tempByte, tempLo, Nat.add_comm]

/-- The fields of a frame, read bit by bit (R72). -/
theorem fieldsOf_eq_iff {f : Frame} {v : Fields} :
    fieldsOf f = v ↔
      frameBit f 13 0 = v.power ∧ (∀ j : Fin 5, frameBit f 14 ⟨j + 1, by omega⟩ = v.temp.getLsbD j) ∧
      frameBit f 14 0 = v.half ∧ frameBit f 21 0 = v.powerfull ∧ frameBit f 21 5 = v.quiet := by
  have ht : temp f = v.temp ↔ ∀ j : Fin 5, frameBit f 14 ⟨j + 1, by omega⟩ = v.temp.getLsbD j := by
    simp only [← temp_getLsbD]
    exact ⟨fun h j => h ▸ rfl, fun h => BitVec.eq_of_getLsbD_eq fun j hj => h ⟨j, hj⟩⟩
  rw [← ht]
  cases v
  exact Fields.mk.injEq .. ▸ Iff.rfl

/-- R86, last sentence: in the fields a command does what `commandFields` says. -/
theorem fieldsOf_commandFrame (c : Instr) (f : Frame) : fieldsOf (commandFrame c f) = commandFields c (fieldsOf f) := by
  obtain ⟨-, ht, -⟩ := fieldsOf_eq_iff.1 (rfl : fieldsOf f = fieldsOf f)
  cases c with
  | setPower on =>
    rw [fieldsOf_eq_iff, commandFrame]
    simp only [frameBit_powerFrame on f (k := 13) (by decide), frameBit_powerFrame on f (k := 14) (by decide),
      frameBit_powerFrame on f (k := 21) (by decide)]
    cases on <;> exact ⟨rfl, ht, rfl, rfl, rfl⟩
  | setTemp value half =>
    by_cases hv : tempAccepted value
    · rw [fieldsOf_eq_iff, commandFrame, commandFields, if_pos hv]
      simp only [frameBit_tempFrame hv half f (k := 13) (by decide), frameBit_tempFrame hv half f (k := 14) (by decide),
        frameBit_tempFrame hv half f (k := 21) (by decide)]
      refine ⟨rfl, fun j => ?_, rfl, rfl, rfl⟩
      rw [BitVec.getLsbD_ofNat, decide_eq_true j.isLt, Bool.true_and]
      fin_cases j <;> rfl
    · rw [commandFrame, tempFrame_rejected hv, commandFields, if_neg hv]
  | setFan mode =>
    rw [fieldsOf_eq_iff, commandFrame]
    simp only [frameBit_fanFrame mode f (k := 13) (by decide), frameBit_fanFrame mode f (k := 14) (by decide),
      frameBit_fanFrame mode f (k := 21) (by decide)]
    exact ⟨rfl, ht, rfl, rfl, rfl⟩
  | send => rfl
  | getBit k i => rfl

/-- Temperature and fan mode are valid (R26, R27), said of the fields. -/
def Fields.Valid (v : Fields) : Prop :=
  (16 ≤ v.temp.toNat ∧ v.temp.toNat ≤ 30 ∧ (v.temp.toNat = 30 → v.half = false)) ∧
  ¬(v.powerfull = true ∧ v.quiet = true)

theorem fieldsOf_valid_iff {f : Frame} : (fieldsOf f).Valid ↔ TempOk f ∧ FanOk f := Iff.rfl

theorem commandFields_valid (c : Instr) {v : Fields} (h : v.Valid) : (commandFields c v).Valid := by
  obtain ⟨ht, hf⟩ := h
  cases c with
  | setPower on =>
    cases on with
    | true => exact ⟨ht, hf⟩
    | false => exact ⟨ht, by simp [commandFields]⟩
  | setTemp value half =>
    rw [commandFields]
    split
    next hv =>
      obtain ⟨hlo, hhi⟩ : 16 ≤ value ∧ value ≤ 30 := hv
      have hn : (BitVec.ofNat 5 value).toNat = value := by simp; omega
      exact ⟨⟨hlo.trans_eq hn.symm, hn.trans_le hhi, fun h30 => if_pos (hn.symm.trans h30)⟩, hf⟩
    next => exact ⟨ht, hf⟩
  | setFan mode => exact ⟨ht, by cases mode <;> simp [commandFields, fanPowerfull, fanQuiet]⟩
  | send => exact ⟨ht, hf⟩
  | getBit k i => exact ⟨ht, hf⟩

/-- WF1 to WF4, read of a frame, are kept by every command (R25 to R27, R82). -/
theorem templateOk_commandFrame (c : Instr) {f : Frame} (h : TemplateOk f) : TemplateOk (commandFrame c f) := by
  obtain ⟨hc, hv⟩ := h
  refine ⟨checksumOk_commandFrame c hc, fieldsOf_valid_iff.1 ?_⟩
  rw [fieldsOf_commandFrame]
  exact commandFields_valid c (fieldsOf_valid_iff.2 hv)

/-! ### The frame in every reachable state -/

/-- R23: no command writes the template. -/
theorem exec_template {c : Instr} {s t : State} (h : exec c s = .next t) : t.template = s.template := by
  obtain ⟨-, rfl⟩ | ⟨-, rfl⟩ | ⟨_, _, _, -, -, rfl⟩ | ⟨_, _, -, -, rfl⟩ := exec_cases h <;> rfl

/-- What a tick does to frame and template (R42, R111): the frame is loaded from the template, kept, or transformed by
one command; the template stays. -/
theorem step_frame {s t : State} (h : step s = .next t) :
    t.template = s.template ∧
      (t.frame = s.template ∨ t.frame = s.frame ∨ ∃ c, t.frame = commandFrame c s.frame) := by
  obtain ⟨-, rfl⟩ | ⟨-, -, -, rfl⟩ | ⟨-, -, _, c, -, -, he⟩ | ⟨-, -, rfl⟩ := step_cases h
  · exact ⟨rfl, .inl rfl⟩
  · exact ⟨rfl, .inr (.inl rfl)⟩
  · obtain ⟨u, hu, hframe⟩ := exec_next c s.nextTick
    obtain rfl : t = u := Host.Outcome.next.inj (he.symm.trans hu)
    exact ⟨(exec_template he).trans rfl, .inr (.inr ⟨c, hframe⟩)⟩
  · exact ⟨by rw [seqTick_only]; rfl, .inr (.inl (seqTick_frame _))⟩

/-- Induction over runs: what holds of template and frame and is kept by every command holds of the frame after any
number of ticks, reset ticks included. -/
theorem stateAfter_frame_induction {P : Frame → Prop} (command : ∀ c f, P f → P (commandFrame c f)) (n : Nat) (s : State)
    (template : P s.template) (frame : P s.frame) : P (stateAfter n s).frame := by
  induction n generalizing s with
  | zero => exact frame
  | succ n ih =>
    obtain ⟨t, ht⟩ := step_next s
    obtain ⟨htemplate, hframe⟩ := step_frame ht
    rw [stateAfter_succ ht]
    refine ih t (htemplate ▸ template) ?_
    obtain h | h | ⟨c, h⟩ := hframe
    · exact h ▸ template
    · exact h ▸ frame
    · exact h ▸ command c s.frame frame

/-- The same from a reset state: the frame is the template there (R28). -/
theorem frame_of_atReset {P : Frame → Prop} (command : ∀ c f, P f → P (commandFrame c f)) (n : Nat) {s : State}
    (hs : AtReset s) (template : P s.template) : P (stateAfter n s).frame :=
  stateAfter_frame_induction command n s template (hs.1 ▸ template)

/-- Settles O30: the template meets the four invariants, and every command keeps them. -/
theorem fourInvariantsHoldInEveryReachableState : Obligations.FourInvariantsHoldInEveryReachableState := by
  intro n s hs hwf
  have header : ∀ k : Fin 27, k ≤ 7 → (stateAfter n s).frame[k] = s.template[k] :=
    frame_of_atReset (P := fun f => ∀ k : Fin 27, k ≤ 7 → f[k] = s.template[k])
      (fun c f h k hk => (commandFrame_header c f hk).trans (h k hk)) n hs (fun _ _ => rfl)
  obtain ⟨hsum, ⟨hlo, hhi, hhalf⟩, hfan⟩ := frame_of_atReset (fun c _ => templateOk_commandFrame c) n hs hwf
  exact ⟨header, hsum, hfan, hlo, hhi, hhalf⟩

/-! ### Reset and flags -/

theorem atReset_reset : AtReset State.reset := ⟨rfl, rfl, rfl, rfl, rfl⟩

/-- In a reset state the frame's invariants are WF1 to WF4 of the template (R14, R28). -/
theorem frameInv_atReset_iff {s : State} (hs : AtReset s) : FrameInv s ↔ TemplateOk s.template := by
  have hframe : s.frame = s.template := hs.1
  refine ⟨And.left, fun h => ⟨h, fun k _ => ?_, fun k i _ => ?_, hframe ▸ h⟩⟩
  · rw [hframe]
  · rw [hframe]

/-- Settles O1, field by field (R28). -/
theorem resetStateIsTheTemplateAndIdle : Obligations.ResetStateIsTheTemplateAndIdle :=
  ⟨fun _ => rfl, rfl, rfl, rfl, rfl, rfl, rfl, rfl, rfl, rfl, rfl, rfl, rfl⟩

theorem busy_iff (s : State) : busy s = true ↔ s.ph ≠ .idle := bne_iff_ne

theorem markPhase_iff (ph : Phase) : markPhase ph = true ↔ ph = .startMark ∨ ph = .bitMark ∨ ph = .stopMark := by
  cases ph <;> decide

theorem cmdReady_iff (s : State) : cmdReady s = true ↔ s.ph = .idle ∧ rst s = false := by
  simp [cmdReady]

/-- Settles O21, flag by flag (R22, R101, R102). -/
theorem flagsFollowThePhase : Obligations.FlagsFollowThePhase :=
  fun s => ⟨busy_iff s, markPhase_iff s.ph, cmdReady_iff s⟩

/-- Settles O29: the reset state is one of those in which the invariants are the template's. -/
theorem frameInvariantAtReset : Obligations.FrameInvariantAtReset := frameInv_atReset_iff atReset_reset

end Sys2Proof.Machine

/-!
PROOFS of 20_memory.md's statements (O33, O34, O42). First the frame of a command and of a step; then the wire order: the
trace from each bit's place on is that bit's two intervals and what the sequencer plays after them, by induction over bytes
and bits.
-/

namespace Sys2Proof.Machine

/-! ### What writes the frame -/

theorem exec_frame {i : Instr} {s t : State} (h : exec i s = .next t) : t.frame = commandFrame i s.frame := by
  obtain ⟨u, hu, hframe⟩ := exec_next i s
  obtain rfl : t = u := Host.Outcome.next.inj (h.symm.trans hu)
  exact hframe

/-- R44: SEND and GET_BIT write nothing in the frame. -/
theorem commandFrame_of_not_mutator {i : Instr} (h : isMutator i = false) (f : Frame) : commandFrame i f = f := by
  cases i with
  | setPower on => cases h
  | setTemp value half => cases h
  | setFan mode => cases h
  | send => rfl
  | getBit k b => rfl

theorem accepted_of_idle {s : State} (hr : rst s = false) (hi : s.ph = .idle) : accepted s = offer s :=
  if_pos ((cmdReady_iff s).2 ⟨hi, hr⟩)

/-- Settles O33: the write set is that of the transaction level's frame, the rest is read off the five meanings. -/
theorem commandsWriteOnlyTheirBits : Obligations.CommandsWriteOnlyTheirBits := by
  intro i s t h
  refine ⟨fun k b hw => by rw [exec_frame h, frameBit_commandFrame hw], ?_⟩
  obtain ⟨hm, rfl⟩ | ⟨rfl, rfl⟩ | ⟨_, _, _, rfl, -, rfl⟩ | ⟨_, _, rfl, -, rfl⟩ := exec_cases h
  · exact ⟨fun _ => rfl, fun hi => (by cases hi; cases hm), fun _ _ hi => (by cases hi; cases hm)⟩
  · exact ⟨nofun, fun _ => rfl, nofun⟩
  · exact ⟨nofun, nofun, fun _ _ _ => rfl⟩
  · exact ⟨nofun, nofun, fun _ _ _ => rfl⟩

/-- Settles O34, branch by branch of the step: only a reset and an executed mutator write the frame. -/
theorem onlyMutatorsAndResetChangeTheFrame : Obligations.OnlyMutatorsAndResetChangeTheFrame := by
  intro s t h hne
  obtain ⟨hr, -⟩ | ⟨-, -, -, rfl⟩ | ⟨hr, hi, w, i, ho, hd, he⟩ | ⟨-, -, rfl⟩ := step_cases h
  · exact .inl hr
  · exact absurd rfl hne
  · refine .inr ⟨w, i, (accepted_of_idle hr hi).trans ho, hd, ?_, hi⟩
    by_contra hm
    exact hne ((exec_frame he).trans (commandFrame_of_not_mutator (Bool.eq_false_iff.2 hm) _))
  · exact absurd (seqTick_frame _) hne

/-! ### The wire order -/

/-- Where the two intervals of bit `i` of byte `k` begin in the trace: after the start bit, and in the body also after the
header's stop bit and the second start bit (R64, R90). -/
def wirePosition (k : Fin 27) (i : Fin 8) : Nat := (if k.val ≤ 7 then 2 else 6) + 2 * (8 * k.val + i.val)

theorem wirePosition_nextBit (k : Fin 27) (i : Fin 7) : wirePosition k i.succ = wirePosition k i.castSucc + 2 := by
  simp only [wirePosition, Fin.val_succ, Fin.val_castSucc]
  omega

/-- Between byte 7 and byte 8 stand a stop bit and a start bit. -/
theorem wirePosition_nextByte (k : Fin 26) :
    wirePosition k.succ 0 = wirePosition k.castSucc 7 + 2 + if k.val = 7 then 4 else 0 := by
  revert k
  decide

/-- The trace from the place of bit `i` of byte `k` on: that bit, and what the sequencer plays after it. -/
def FromBit (f : Frame) (k : Fin 27) (i : Fin 8) : Prop :=
  (trace f).drop (wirePosition k i) = bitSymbol (frameBit f k i) ++ afterBit f k i

theorem FromBit.next {f : Frame} {k : Fin 27} {i : Fin 8} (h : FromBit f k i) :
    (trace f).drop (wirePosition k i + 2) = afterBit f k i := by
  rw [← List.drop_drop, h]
  rfl

/-- After the last bit of the header come its stop bit and the body subframe, whose first bit is bit 0 of byte 8. -/
theorem afterBit_header (f : Frame) :
    afterBit f 7 7 = stopSymbol ++ (startSymbol ++ (bitSymbol (frameBit f 8 0) ++ afterBit f 8 0)) := by
  have h : afterStop f 7 = startSymbol ++ (bitSymbol (frameBit f 8 0) ++ afterBit f 8 0) :=
    (startMark_toCome_body f).symm
  rw [afterBit_stop f (by decide) (by decide), h]

/-- Within a byte, bit 0 first (R33). -/
theorem fromBit_of_byte {f : Frame} {k : Fin 27} (h : FromBit f k 0) (i : Fin 8) : FromBit f k i := by
  induction i using Fin.induction with
  | zero => exact h
  | succ i ih =>
    have hi : i.castSucc < 7 := Fin.castSucc_lt_last i
    rw [FromBit, wirePosition_nextBit, ih.next, afterBit_bit f k hi, Fin.coeSucc_eq_succ]

theorem not_lastByte {k : Fin 26} (h : k ≠ 7) : k.castSucc ≠ hdrLast ∧ k.castSucc ≠ bodyLast := by
  revert k; decide

/-- Byte by byte, the header and then the body (R64, R90). -/
theorem fromBit (f : Frame) (k : Fin 27) (i : Fin 8) : FromBit f k i := by
  refine fromBit_of_byte ?_ i
  induction k using Fin.induction with
  | zero =>
    rw [FromBit, ← startMark_toCome_header]
    rfl
  | succ k ih =>
    have hlast := (fromBit_of_byte ih 7).next
    rw [FromBit, wirePosition_nextByte, ← List.drop_drop, hlast]
    by_cases hk : k = 7
    · subst hk
      exact congrArg (List.drop 4) (afterBit_header f)
    · rw [if_neg (by omega), List.drop_zero, afterBit_byte f (by decide) (not_lastByte hk), Fin.coeSucc_eq_succ]

/-- After the last bit of the body comes its stop bit, and nothing after it. -/
theorem trace_drop_bodyStop (f : Frame) : (trace f).drop 438 = stopSymbol := by
  have h : (trace f).drop 438 = afterBit f 26 7 := (fromBit f 26 7).next
  rw [h, afterBit_stop f (by decide) (by decide)]
  rfl

theorem length_trace (f : Frame) : (trace f).length = 440 := by
  have h : (trace f).length - 438 = 2 := List.length_drop.symm.trans (congrArg List.length (trace_drop_bodyStop f))
  omega

/-- Settles O42: the start bit, what follows the header's last bit and the body's last bit, and every bit at its place. -/
theorem traceCarriesEveryBitInWireOrder : Obligations.TraceCarriesEveryBitInWireOrder := by
  intro f
  have hheader : (trace f).drop 130 = afterBit f 7 7 := (fromBit f 7 7).next
  refine ⟨length_trace f, ?_, ?_, trace_drop_bodyStop f, fun k i => congrArg (List.take 2) (fromBit f k i)⟩
  · rw [← startMark_toCome_header]
    rfl
  · rw [hheader, afterBit_header]
    rfl

end Sys2Proof.Machine

/-!
PROOFS of 30_encoding.md's statements (O7 to O11, O39). First a word's fields, masks and flags as numbers; then one walk
through the decoder: it answers a well-formed command whose number the word is, or the word's fields are those of R54. The
statements about words follow by arithmetic.
-/

namespace Sys2Proof.Machine

/-! ### Fields, masks and flags of a word -/

theorem field_lt (w : CmdWord) (hi lo : Nat) : field w hi lo < 2 ^ (hi + 1 - lo) :=
  Nat.mod_lt _ (Nat.two_pow_pos _)

/-- The bits `hi` to `lo`, cut above the bit `mid`. -/
theorem field_split (w : CmdWord) {hi mid lo : Nat} (hhi : mid ≤ hi := by omega) (hlo : lo ≤ mid := by omega) :
    field w hi lo = field w mid lo + 2 ^ (mid + 1 - lo) * field w hi (mid + 1) := by
  have hwidth : 2 ^ (hi + 1 - lo) = 2 ^ (mid + 1 - lo) * 2 ^ (hi + 1 - (mid + 1)) := by
    rw [← Nat.pow_add]; congr 1; omega
  have hplace : 2 ^ (mid + 1) = 2 ^ lo * 2 ^ (mid + 1 - lo) := by
    rw [← Nat.pow_add]; congr 1; omega
  rw [field, hwidth, Nat.mod_mul, field, field, hplace, Nat.div_div_eq_div_mul]

/-- A word, cut above the bit `mid`. -/
theorem toNat_split (w : CmdWord) {mid : Nat} (hmid : mid ≤ 15 := by omega) :
    w.toNat = field w mid 0 + 2 ^ (mid + 1) * field w 15 (mid + 1) := by
  have hword : field w 15 0 = w.toNat := by
    rw [field, pow_zero, Nat.div_one]
    exact Nat.mod_eq_of_lt w.isLt
  exact hword.symm.trans (field_split w)

theorem toNat_extractLsb'_eq_field (w : CmdWord) (hi lo : Nat) :
    (w.extractLsb' lo (hi + 1 - lo)).toNat = field w hi lo := by
  rw [BitVec.extractLsb'_toNat, Nat.shiftRight_eq_div_pow, field]

theorem toNat_getLsbD_eq_field (w : CmdWord) (i : Nat) : (w.getLsbD i).toNat = field w i i := by
  rw [BitVec.getLsbD, Nat.toNat_testBit, field, Nat.add_sub_cancel_left, pow_one]

/-- The decoder's reading of a one-bit field loses nothing. -/
theorem toNat_flag (w : CmdWord) (i : Nat) : (field w i i == 1).toNat = field w i i := by
  rw [← toNat_getLsbD_eq_field]
  cases w.getLsbD i <;> rfl

/-- A mask of the bits `hi` to `lo` leaves the field of these bits, at its place. -/
theorem and_mask_eq_iff {w m r : CmdWord} (hi lo : Nat) (hm : m.toNat = (2 ^ (hi + 1 - lo) - 1) * 2 ^ lo) :
    w &&& m = r ↔ field w hi lo * 2 ^ lo = r.toNat := by
  suffices h : w.toNat &&& m.toNat = field w hi lo * 2 ^ lo by rw [← BitVec.toNat_inj, BitVec.toNat_and, h]
  refine Nat.eq_of_testBit_eq fun i => ?_
  rw [hm, Nat.testBit_and, Nat.testBit_mul_two_pow, Nat.testBit_mul_two_pow, Nat.testBit_two_pow_sub_one, field,
    Nat.testBit_mod_two_pow, Nat.testBit_div_two_pow]
  by_cases hlo : lo ≤ i
  · simp [hlo, Bool.and_comm]
  · simp [hlo]

theorem and_mask_eq_zero_iff {w m : CmdWord} (hi lo : Nat) (hm : m.toNat = (2 ^ (hi + 1 - lo) - 1) * 2 ^ lo) :
    w &&& m = 0 ↔ field w hi lo = 0 := by
  rw [and_mask_eq_iff hi lo hm]
  exact mul_eq_zero_iff_right (Nat.two_pow_pos lo).ne'

/-! ### What the decoder answers -/

/-- R54, in the fields the decoder reads. -/
def IllegalFields (w : CmdWord) : Prop :=
  (field w 15 12 = 0 ∨ 5 < field w 15 12) ∨
  (field w 15 12 = 1 ∧ field w 11 1 ≠ 0) ∨ (field w 15 12 = 2 ∧ field w 11 9 ≠ 0) ∨
  (field w 15 12 = 3 ∧ field w 11 2 ≠ 0) ∨ (field w 15 12 = 4 ∧ field w 11 0 ≠ 0) ∨
  (field w 15 12 = 5 ∧ field w 11 9 ≠ 0) ∨
  (field w 15 12 = 3 ∧ field w 11 2 = 0 ∧ field w 1 0 = 3)

theorem fanModeOf_cases (n : Nat) :
    (∃ mode, fanModeOf n = some mode ∧ fanModeNumber mode = n ∧ n < 3) ∨ (fanModeOf n = none ∧ 3 ≤ n) := by
  match n with
  | 0 => exact .inl ⟨_, rfl, rfl, by decide⟩
  | 1 => exact .inl ⟨_, rfl, rfl, by decide⟩
  | 2 => exact .inl ⟨_, rfl, rfl, by decide⟩
  | n + 3 => exact .inr ⟨rfl, by omega⟩

theorem wellFormed_getBit_iff {k b : Nat} : (Instr.getBit k b).wellFormed = true ↔ k < 32 ∧ b < 16 := by
  simp [Instr.wellFormed]

/-- Every answer of the decoder (R63): an error for the words of R54, for any other word the command of that number. -/
theorem decode_cases (w : CmdWord) :
    (¬IllegalFields w ∧ ∃ i, decode w = .ok i ∧ i.wellFormed = true ∧ w.toNat = encodeNumber i) ∨
    (IllegalFields w ∧ ∃ e, decode w = .error e) := by
  have hword : w.toNat = field w 11 0 + 4096 * field w 15 12 := toNat_split w
  unfold decode IllegalFields
  split
  case h_1 hop =>
    have harg : field w 11 0 = field w 0 0 + 2 * field w 11 1 := field_split w
    by_cases hres : field w 11 1 = 0
    · rw [if_pos hres]
      exact .inl ⟨by omega, _, rfl, rfl, by rw [encodeNumber, toNat_flag]; omega⟩
    · rw [if_neg hres]
      exact .inr ⟨by omega, _, rfl⟩
  case h_2 hop =>
    have harg : field w 11 0 = field w 8 0 + 512 * field w 11 9 := field_split w
    have hopnd : field w 8 0 = field w 7 0 + 256 * field w 8 8 := field_split w
    by_cases hres : field w 11 9 = 0
    · rw [if_pos hres]
      exact .inl ⟨by omega, _, rfl, decide_eq_true (field_lt w 7 0), by rw [encodeNumber, toNat_flag]; omega⟩
    · rw [if_neg hres]
      exact .inr ⟨by omega, _, rfl⟩
  case h_3 hop =>
    have harg : field w 11 0 = field w 1 0 + 4 * field w 11 2 := field_split w
    have hmax : field w 1 0 < 4 := field_lt w 1 0
    by_cases hres : field w 11 2 = 0
    · rw [if_pos hres]
      obtain ⟨mode, hmode, hnum, hlt⟩ | ⟨hmode, hnum⟩ := fanModeOf_cases (field w 1 0)
      · rw [hmode]
        exact .inl ⟨by omega, _, rfl, rfl, by rw [encodeNumber]; omega⟩
      · rw [hmode]
        exact .inr ⟨by omega, _, rfl⟩
    · rw [if_neg hres]
      exact .inr ⟨by omega, _, rfl⟩
  case h_4 hop =>
    by_cases hres : field w 11 0 = 0
    · rw [if_pos hres]
      exact .inl ⟨by omega, _, rfl, rfl, by rw [encodeNumber]; omega⟩
    · rw [if_neg hres]
      exact .inr ⟨by omega, _, rfl⟩
  case h_5 hop =>
    have harg : field w 11 0 = field w 8 0 + 512 * field w 11 9 := field_split w
    have hopnd : field w 8 0 = field w 4 0 + 32 * field w 8 5 := field_split w
    by_cases hres : field w 11 9 = 0
    · rw [if_pos hres]
      exact .inl ⟨by omega, _, rfl, wellFormed_getBit_iff.2 ⟨field_lt w 4 0, field_lt w 8 5⟩,
        by rw [encodeNumber]; omega⟩
    · rw [if_neg hres]
      exact .inr ⟨by omega, _, rfl⟩
  case h_6 h1 h2 h3 h4 h5 =>
    have hop : field w 15 12 ≠ 1 ∧ field w 15 12 ≠ 2 ∧ field w 15 12 ≠ 3 ∧ field w 15 12 ≠ 4 ∧
      field w 15 12 ≠ 5 := ⟨h1, h2, h3, h4, h5⟩
    exact .inr ⟨by omega, _, rfl⟩

theorem encode_eq_some_of_toNat {w : CmdWord} {i : Instr} (hwf : i.wellFormed = true) (hn : w.toNat = encodeNumber i) :
    encode i = some w := by
  rw [encode, if_pos hwf, ← hn, BitVec.ofNat_toNat, BitVec.setWidth_eq]

/-- A command is decoded from the word that has its number, and from no other. -/
theorem decode_eq_ok_iff {w : CmdWord} {i : Instr} :
    decode w = .ok i ↔ i.wellFormed = true ∧ w.toNat = encodeNumber i := by
  constructor
  · intro h
    obtain ⟨-, j, hj, hnum⟩ | ⟨-, e, he⟩ := decode_cases w
    · cases h.symm.trans hj
      exact hnum
    · cases h.symm.trans he
  · intro ⟨hwf, hn⟩
    obtain ⟨v, hv, hd⟩ := decode_encode hwf
    cases hv.symm.trans (encode_eq_some_of_toNat hwf hn)
    exact hd

theorem decode_error_iff (w : CmdWord) : (∃ e, decode w = .error e) ↔ IllegalFields w := by
  obtain ⟨hlegal, i, hi, -⟩ | ⟨hill, herr⟩ := decode_cases w
  · simp [hi, hlegal]
  · exact iff_of_true herr hill

/-- Settles O7: `decode_encode`, command by command. -/
theorem decodeOfEncodeIsTheCommand : Obligations.DecodeOfEncodeIsTheCommand := fun _ => decode_encode

/-- Settles O8: the word of a decoded command has the command's number. -/
theorem encodeOfDecodeIsTheWord : Obligations.EncodeOfDecodeIsTheWord := by
  intro w i h
  obtain ⟨hwf, hn⟩ := decode_eq_ok_iff.1 h
  exact ⟨hwf, encode_eq_some_of_toNat hwf hn⟩

/-- Settles O9: a word of a row has the number of the row's command with the word's fields as operands. -/
theorem legalWordsDecodeToTheirFields : Obligations.LegalWordsDecodeToTheirFields := by
  intro w
  refine ⟨fun h => ?_, fun h => ?_, ?_, ?_, ?_, ?_, fun h => ?_⟩
  · have hrow : field w 15 1 * 2 = 0x1000 := (and_mask_eq_iff 15 1 rfl).1 h
    have hword : w.toNat = field w 0 0 + 2 * field w 15 1 := toNat_split w
    exact decode_eq_ok_iff.2 ⟨rfl, by rw [encodeNumber, toNat_getLsbD_eq_field]; omega⟩
  · have hrow : field w 15 9 * 512 = 0x2000 := (and_mask_eq_iff 15 9 rfl).1 h
    have hword : w.toNat = field w 8 0 + 512 * field w 15 9 := toNat_split w
    have hopnd : field w 8 0 = field w 7 0 + 256 * field w 8 8 := field_split w
    rw [toNat_extractLsb'_eq_field w 7 0]
    exact decode_eq_ok_iff.2 ⟨decide_eq_true (field_lt w 7 0), by rw [encodeNumber, toNat_getLsbD_eq_field]; omega⟩
  · rintro rfl; rfl
  · rintro rfl; rfl
  · rintro rfl; rfl
  · rintro rfl; rfl
  · have hrow : field w 15 9 * 512 = 0x5000 := (and_mask_eq_iff 15 9 rfl).1 h
    have hword : w.toNat = field w 8 0 + 512 * field w 15 9 := toNat_split w
    have hopnd : field w 8 0 = field w 4 0 + 32 * field w 8 5 := field_split w
    rw [toNat_extractLsb'_eq_field w 4 0, toNat_extractLsb'_eq_field w 8 5]
    exact decode_eq_ok_iff.2 ⟨wellFormed_getBit_iff.2 ⟨field_lt w 4 0, field_lt w 8 5⟩, by rw [encodeNumber]; omega⟩

/-- Settles O11, by running the decoder on the five words. -/
theorem writtenWordsDecode : Obligations.WrittenWordsDecode := ⟨rfl, rfl, rfl, rfl, rfl⟩

/-! ### Illegal words -/

/-- The one illegal word without a reserved bit and with a known `op` (R50, R54). -/
theorem eq_illegalFan_iff (w : CmdWord) :
    w = 0x3003 ↔ field w 15 12 = 3 ∧ field w 11 2 = 0 ∧ field w 1 0 = 3 := by
  have hword : w.toNat = field w 11 0 + 4096 * field w 15 12 := toNat_split w
  have harg : field w 11 0 = field w 1 0 + 4 * field w 11 2 := field_split w
  constructor
  · rintro rfl
    exact ⟨rfl, rfl, rfl⟩
  · rintro ⟨hop, hres, hmode⟩
    refine BitVec.eq_of_toNat_eq (show w.toNat = 0x3003 from ?_)
    omega

/-- Settles O10: the masks of R54 select the decoder's fields; the tick that discards a word moves only the ports. -/
theorem illegalWordsAreDiscarded : Obligations.IllegalWordsAreDiscarded := by
  refine ⟨fun w => ?_, fun s w e hr hi ho hd => ?_⟩
  · have hop : (w.extractLsb' 12 4).toNat = field w 15 12 := toNat_extractLsb'_eq_field w 15 12
    rw [decode_error_iff, IllegalFields, eq_illegalFan_iff, ← hop]
    simp only [ne_eq, and_mask_eq_zero_iff (m := 0x0FFE) 11 1 rfl, and_mask_eq_zero_iff (m := 0x0E00) 11 9 rfl,
      and_mask_eq_zero_iff (m := 0x0FFC) 11 2 rfl, and_mask_eq_zero_iff (m := 0x0FFF) 11 0 rfl,
      BitVec.lt_def, ← BitVec.toNat_inj]
    rfl
  · have hport : accepted s = some w := (accepted_of_idle hr hi).trans ho
    exact ⟨hport, s.nextTick, step_illegal hr hi ho hd, rfl, rfl, rfl, rfl, rfl, rfl, by simp [irOut, hi, markPhase]⟩

/-! ### Byte 14 -/

theorem toNat_frameBit (f : Frame) (k : Fin 27) (i : Fin 8) :
    (frameBit f k i).toNat = f[k].toNat / 2 ^ i.val % 2 :=
  Nat.toNat_testBit _ _

theorem toNat_temp (f : Frame) : (temp f).toNat = f[14].toNat / 2 % 32 := by
  rw [temp, BitVec.extractLsb'_toNat, Nat.shiftRight_eq_div_pow]
  rfl

/-- Settles O39: a byte is the sum of its bits, and the five bits of the temperature lie next to each other. -/
theorem byteFourteenIsTemplateTemperatureHalf : Obligations.ByteFourteenIsTemplateTemperatureHalf := by
  intro f
  have hsum : f[14].toNat =
      128 * (frameBit f 14 7).toNat + 64 * (frameBit f 14 6).toNat + 2 * (temp f).toNat + (half f).toNat := by
    have h7 : (frameBit f 14 7).toNat = f[14].toNat / 128 % 2 := toNat_frameBit f 14 7
    have h6 : (frameBit f 14 6).toNat = f[14].toNat / 64 % 2 := toNat_frameBit f 14 6
    have h0 : (half f).toNat = f[14].toNat / 1 % 2 := toNat_frameBit f 14 0
    have ht := toNat_temp f
    omega
  refine ⟨hsum, fun h7 h6 => ?_⟩
  simpa [h7, h6] using hsum

end Sys2Proof.Machine

/-!
PROOFS of 40_bit_access.md's statements (O12, O13, O22, O35). First the accesses out of range and the two meanings of
GET_BIT; then the status outputs as numbers; then the response bit and the count of free values, replaced by any other
values in the state that a step starts from.
-/

namespace Sys2Proof.Machine

/-! ### Bit writes and GET_BIT -/

theorem setBit_outOfRange (f : Frame) {k i : Nat} (h : ¬inRange k i) : setBit f k i = f := dif_neg h

theorem clearBit_outOfRange (f : Frame) {k i : Nat} (h : ¬inRange k i) : clearBit f k i = f := dif_neg h

/-- Settles O12: in range bit by bit, out of range by the bounds check (R65). -/
theorem bitWritesChangeOneBit : Obligations.BitWritesChangeOneBit := by
  refine fun f k i => ⟨fun _ => ⟨frameBit_setBit f k i, frameBit_clearBit f k i⟩, fun hout => ?_⟩
  have h : ¬inRange k i := by omega
  exact ⟨setBit_outOfRange f h, clearBit_outOfRange f h⟩

theorem exec_getBit_of_some {s : State} {k i : Nat} {v : Bool} (h : getBit s.frame k i = some v) :
    exec (.getBit k i) s = .next (s.withRsp v) := by
  rw [exec, execGetBit, h]

theorem exec_getBit_of_none {s : State} {k i : Nat} (h : getBit s.frame k i = none) :
    exec (.getBit k i) s = .next (s.withRsp (Config.getbitOor s.draws)).drawn := by
  rw [exec, execGetBit, h]

/-- Settles O13: `getBit` has a value in range, and the bit is the byte's as a number; out of range it has none. -/
theorem getBitDrivesTheResponseBit : Obligations.GetBitDrivesTheResponseBit := by
  refine fun s k i => ⟨fun hk hi => ?_, fun hout => ?_⟩
  · have hbit : getBit s.frame k i = some (decide (s.frame[k].toNat / 2 ^ i % 2 = 1)) :=
      (getBit_inRange s.frame ⟨k, hk⟩ ⟨i, hi⟩).trans (congrArg some (frameBit_eq s.frame ⟨k, hk⟩ ⟨i, hi⟩))
    exact exec_getBit_of_some hbit
  · have hbit : getBit s.frame k i = none := getBit_outOfRange s.frame (by omega)
    exact exec_getBit_of_none hbit

/-! ### The status outputs -/

/-- The temperature is the sum of its bits, the byte's bits 1 to 5 (R16). -/
theorem toNat_temp_eq_bits (f : Frame) :
    (temp f).toNat = 16 * (frameBit f 14 5).toNat + 8 * (frameBit f 14 4).toNat + 4 * (frameBit f 14 3).toNat +
      2 * (frameBit f 14 2).toNat + (frameBit f 14 1).toNat := by
  have h5 : (frameBit f 14 5).toNat = f[14].toNat / 32 % 2 := toNat_frameBit f 14 5
  have h4 : (frameBit f 14 4).toNat = f[14].toNat / 16 % 2 := toNat_frameBit f 14 4
  have h3 : (frameBit f 14 3).toNat = f[14].toNat / 8 % 2 := toNat_frameBit f 14 3
  have h2 : (frameBit f 14 2).toNat = f[14].toNat / 4 % 2 := toNat_frameBit f 14 2
  have h1 : (frameBit f 14 1).toNat = f[14].toNat / 2 % 2 := toNat_frameBit f 14 1
  have ht := toNat_temp f
  omega

/-- A pair of wires as a number, the left one high. -/
theorem toNat_ofBool_append (a b : Bool) : (BitVec.ofBool a ++ BitVec.ofBool b).toNat = 2 * a.toNat + b.toNat := by
  cases a <;> cases b <;> rfl

/-- Settles O22, output by output (R72, R84). -/
theorem statusOutputsShowTheFields : Obligations.StatusOutputsShowTheFields :=
  fun s => ⟨rfl, toNat_temp_eq_bits s.frame, rfl, toNat_ofBool_append (quiet s.frame) (powerfull s.frame)⟩

/-! ### The response bit and the free values reach nothing else -/

/-- `s` with another response bit and another count of free values. -/
def State.withOpen (s : State) (b : Bool) (n : Nat) : State := { s with rspBit := b, draws := n }

/-- The sequencer does not read them, phase by phase (R100). -/
theorem nextInterval_withOpen (s : State) (b : Bool) (n : Nat) :
    nextInterval (s.withOpen b n) = (nextInterval s).withOpen b n := by
  obtain ⟨f, template, ph, bi, bt, cnt, rspBit, rstIn, cmdIn, draws⟩ := s
  cases ph with
  | idle => rfl
  | startMark => rfl
  | startSpace => rfl
  | bitMark => rfl
  | bitSpace => grind [nextInterval, State.withOpen, State.withSeq]
  | stopMark => rfl
  | stopSpace => grind [nextInterval, State.withOpen, State.withSeq]

theorem seqTick_withOpen (s : State) (b : Bool) (n : Nat) : seqTick (s.withOpen b n) = (seqTick s).withOpen b n := by
  have hcnt : (s.withOpen b n).cnt = s.cnt := rfl
  rw [seqTick, seqTick, hcnt]
  split
  · rfl
  · exact nextInterval_withOpen s b n

/-- A command may drive the response bit and draw a value, and does not read them for anything else. -/
theorem exec_withOpen {i : Instr} {s t : State} (h : exec i s = .next t) (b : Bool) (n : Nat) :
    ∃ b' n', exec i (s.withOpen b n) = .next (t.withOpen b' n') := by
  cases i with
  | setPower on => cases h; exact ⟨b, n, rfl⟩
  | setTemp value half => cases h; exact ⟨b, n, rfl⟩
  | setFan mode => cases h; exact ⟨b, n, rfl⟩
  | send => cases h; exact ⟨b, n, rfl⟩
  | getBit k j =>
    cases hv : getBit s.frame k j with
    | some v =>
      cases h.symm.trans (exec_getBit_of_some hv)
      exact ⟨v, n, exec_getBit_of_some hv⟩
    | none =>
      cases h.symm.trans (exec_getBit_of_none hv)
      exact ⟨Config.getbitOor n, n + 1, exec_getBit_of_none hv⟩

/-- The idle branch of R98 when no command is presented: nothing, or an illegal word (R54). -/
theorem step_noCommand {s : State} (hr : rst s = false) (hi : s.ph = .idle)
    (hno : ∀ w i, offer s = some w → decode w ≠ .ok i) : step s = .next s.nextTick := by
  cases ho : offer s with
  | none => exact step_idle hr hi ho
  | some w =>
    cases hd : decode w with
    | ok i => exact absurd hd (hno w i ho)
    | error e => exact step_illegal hr hi ho hd

/-- A step from `s` with another response bit and count takes the same branch of R98. -/
theorem step_withOpen {s t : State} (h : step s = .next t) (b : Bool) (n : Nat) :
    ∃ b' n', step (s.withOpen b n) = .next (t.withOpen b' n') := by
  obtain ⟨hr, rfl⟩ | ⟨hr, hi, hno, rfl⟩ | ⟨hr, hi, w, i, ho, hd, he⟩ | ⟨hr, hb, rfl⟩ := step_cases h
  · exact ⟨_, _, step_reset hr⟩
  · exact ⟨_, _, step_noCommand hr hi hno⟩
  · obtain ⟨b', n', he'⟩ := exec_withOpen he (Config.rspIdle n) (n + 1)
    exact ⟨b', n', (step_command (s := s.withOpen b n) hr hi ho hd).trans he'⟩
  · have hseq := seqTick_withOpen s.nextTick (Config.rspIdle n) (n + 1)
    exact ⟨_, _, (step_busy (s := s.withOpen b n) hr hb).trans (congrArg _ hseq)⟩

/-- Settles O35: the two next states are equal but for a response bit and a count. -/
theorem openValuesReachOnlyTheResponseBit : Obligations.OpenValuesReachOnlyTheResponseBit := by
  intro s t u b n ht hu
  obtain ⟨b', n', h⟩ := step_withOpen ht b n
  cases hu.symm.trans h
  rfl

end Sys2Proof.Machine

/-!
PROOFS of 41_checksum.md's statements (O14, O15, O16). First the sum of the body written out and its bound; then a wrapping
8-bit accumulator, which ends at the sum of the bytes modulo 256 whatever their order.
-/

namespace Sys2Proof.Machine

/-! ### The sum of the body -/

/-- R73's sum, byte by byte. -/
theorem bodySum_eq_bytes (f : Frame) :
    bodySum f =
      f[8].toNat + f[9].toNat + f[10].toNat + f[11].toNat + f[12].toNat + f[13].toNat + f[14].toNat + f[15].toNat +
      f[16].toNat + f[17].toNat + f[18].toNat + f[19].toNat + f[20].toNat + f[21].toNat + f[22].toNat + f[23].toNat +
      f[24].toNat + f[25].toNat := by
  rw [bodySum_eq]
  simp [List.finRange_succ, Nat.add_assoc]

/-- R74's bound, 18 * 255. -/
theorem bodySum_le (f : Frame) : bodySum f ≤ 4590 := by
  have hbyte : ∀ n ∈ (List.finRange 18).map fun j => (f[8 + j.val]).toNat, n ≤ 255 := by
    simp only [List.forall_mem_map]
    exact fun j _ => Nat.le_of_lt_succ (f[8 + j.val]).isLt
  simpa [bodySum_eq] using List.sum_le_card_nsmul _ _ hbyte

theorem toNat_checksum (f : Frame) : (checksum f).toNat = bodySum f % 256 := BitVec.toNat_ofNat _ _

/-- Settles O14: the sum written out, and what it sees (`bodySum_congr`). -/
theorem checksumIsTheSumOfEighteenBytes : Obligations.ChecksumIsTheSumOfEighteenBytes := by
  refine ⟨fun f => ?_, fun f g h => ?_⟩
  · rw [toNat_checksum, bodySum_eq_bytes]
  · have hsum : bodySum f = bodySum g := bodySum_congr fun j hj h8 h25 => h ⟨j, hj⟩ h8 h25
    rw [checksum, checksum, hsum]

/-! ### The order of the additions -/

/-- An accumulator that wraps after every addition ends where the unbounded sum does, modulo 256. -/
theorem foldl_add_eq_ofNat_sum (l : List Byte) (acc : Byte) :
    l.foldl (fun acc b => acc + b) acc = acc + BitVec.ofNat 8 (l.map BitVec.toNat).sum := by
  induction l generalizing acc with
  | nil => simp
  | cons b bs ih =>
    rw [List.foldl_cons, ih, List.map_cons, List.sum_cons, BitVec.ofNat_add, BitVec.ofNat_toNat, BitVec.setWidth_eq,
      BitVec.add_assoc]

/-- Settles O15: the accumulator ends at the sum of the bytes, and a sum does not see their order. -/
theorem checksumReductionOrderIsImmaterial : Obligations.ChecksumReductionOrderIsImmaterial := by
  refine fun f => ⟨bodySum_le f, fun l hl => ?_⟩
  have hsum : (l.map BitVec.toNat).sum = bodySum f := (hl.map BitVec.toNat).sum_eq
  rw [foldl_add_eq_ofNat_sum, hsum]
  exact BitVec.zero_add (checksum f)

/-! ### Writing byte 26 -/

/-- Settles O16: `checksumOk_updateChecksum`, and the bytes that are not the checksum's (`updateChecksum_byte`). -/
theorem updateChecksumEstablishesTheInvariant : Obligations.UpdateChecksumEstablishesTheInvariant := by
  refine fun f => ⟨checksumOk_updateChecksum f, fun k hk => ?_⟩
  have h26 : k.val ≠ 26 := fun h => hk (Fin.ext h)
  exact (updateChecksum_byte f k k.isLt).trans (if_neg h26)

end Sys2Proof.Machine

/-!
PROOFS of 42_frame_mutators.md's statements (O28, O31, O32, O17, O18, O19, O37, O38, O40, O41). First the bits that no
command writes: two frames that agree on them and on the fields, both with a consistent checksum, are equal. So the
invariants, the encoder and the mutators' algebra are questions about `commandFields`, and the checksum moves with the
fields alone.
-/

namespace Sys2Proof.Machine

/-! ### The bits outside the fields -/

/-- Two frames agree on every bit that no command writes (R81). -/
def AgreeOutsideFields (f g : Frame) : Prop :=
  ∀ (k : Fin 27) (i : Fin 8), fieldBit k i = false → frameBit f k i = frameBit g k i

theorem AgreeOutsideFields.refl (f : Frame) : AgreeOutsideFields f f := fun _ _ _ => rfl

theorem AgreeOutsideFields.symm {f g : Frame} (h : AgreeOutsideFields f g) : AgreeOutsideFields g f :=
  fun k i hk => (h k i hk).symm

theorem AgreeOutsideFields.trans {f g h : Frame} (hfg : AgreeOutsideFields f g) (hgh : AgreeOutsideFields g h) :
    AgreeOutsideFields f h :=
  fun k i hk => (hfg k i hk).trans (hgh k i hk)

/-- The field bits are those of R12, one by one. -/
theorem fieldBit_eq_false_iff {k : Fin 27} {i : Fin 8} :
    fieldBit k i = false ↔
      ¬(k = 13 ∧ i = 0) ∧ ¬(k = 14 ∧ i ≤ 5) ∧ ¬(k = 21 ∧ (i = 0 ∨ i = 5)) ∧ k ≠ 26 := by
  simp only [fieldBit, Bool.or_eq_false_iff, Bool.and_eq_false_iff, Bool.or_eq_false_iff, beq_eq_false_iff_ne,
    decide_eq_false_iff_not]
  tauto

/-- Every command's write set lies within the fields and the checksum (R44, R81). -/
theorem mayWrite_of_fieldBit_false {k : Fin 27} {i : Fin 8} (h : fieldBit k i = false) (c : Instr) :
    mayWrite c k i = false := by
  rw [fieldBit_eq_false_iff] at h
  cases c <;> grind [mayWrite]

theorem agree_commandFrame (c : Instr) (f : Frame) : AgreeOutsideFields (commandFrame c f) f :=
  fun _ _ hk => frameBit_commandFrame (mayWrite_of_fieldBit_false hk c) f

/-- Every command keeps the agreement with a template. -/
theorem AgreeOutsideFields.commandFrame {t f : Frame} (c : Instr) (h : AgreeOutsideFields f t) :
    AgreeOutsideFields (commandFrame c f) t :=
  (agree_commandFrame c f).trans h

/-- A byte that holds no field is the same in both frames. -/
theorem AgreeOutsideFields.byte {f g : Frame} (h : AgreeOutsideFields f g) {k : Fin 27} (h13 : k ≠ 13) (h14 : k ≠ 14)
    (h21 : k ≠ 21) (h26 : k ≠ 26) : f[k] = g[k] :=
  byte_eq_of_frameBit_eq fun i => h k i (fieldBit_eq_false_iff.2 (by tauto))

/-- R24: so are the header bytes. -/
theorem AgreeOutsideFields.header {f g : Frame} (h : AgreeOutsideFields f g) {k : Fin 27} (hk : k ≤ 7) : f[k] = g[k] :=
  h.byte (by grind) (by grind) (by grind) (by grind)

/-- Every bit is a field's, the checksum's, or one that no command writes; so frames that agree on the last and hold the
same fields differ at most in byte 26. -/
theorem AgreeOutsideFields.frameBit_eq {f g : Frame} (h : AgreeOutsideFields f g) (hv : fieldsOf f = fieldsOf g)
    {k : Fin 27} (hk : k ≠ 26) (i : Fin 8) : frameBit f k i = frameBit g k i := by
  obtain ⟨hpower, htemp, hhalf, hpowerfull, hquiet⟩ := fieldsOf_eq_iff.1 hv
  cases hb : fieldBit k i with
  | false => exact h k i hb
  | true =>
    have hfield : (k = 13 ∧ i = 0) ∨ (k = 14 ∧ i ≤ 5) ∨ (k = 21 ∧ (i = 0 ∨ i = 5)) := by
      by_contra hno
      exact absurd (hb.symm.trans (fieldBit_eq_false_iff.2 (by tauto))) (by decide)
    obtain ⟨rfl, rfl⟩ | ⟨rfl, hi⟩ | ⟨rfl, rfl | rfl⟩ := hfield
    · exact hpower
    · cases i using Fin.cases with
      | zero => exact hhalf
      | succ j => exact (htemp ⟨j, by grind⟩).trans (temp_getLsbD g ⟨j, by grind⟩)
    · exact hpowerfull
    · exact hquiet

/-- The checksum is a function of the other bytes. -/
theorem eq_of_checksumOk {f g : Frame} (hf : ChecksumOk f) (hg : ChecksumOk g) (h : ∀ k : Fin 27, k ≠ 26 → f[k] = g[k]) :
    f = g := by
  have hsum : bodySum f = bodySum g := bodySum_congr fun j hj _ h25 => h ⟨j, hj⟩ (by grind)
  have h26 : csum f = csum g := BitVec.eq_of_toNat_eq (by rw [hf, hg, hsum])
  refine Vector.ext fun k hk => ?_
  by_cases h' : k = 26
  · subst h'; exact h26
  · exact h ⟨k, hk⟩ (by grind)

/-- A frame with a consistent checksum is known by its fields and the bits no command writes (R12). -/
theorem AgreeOutsideFields.eq_of_fieldsOf {f g : Frame} (h : AgreeOutsideFields f g) (hv : fieldsOf f = fieldsOf g)
    (hf : ChecksumOk f) (hg : ChecksumOk g) : f = g :=
  eq_of_checksumOk hf hg fun _ hk => byte_eq_of_frameBit_eq (h.frameBit_eq hv hk)

/-! ### Invariants over steps and runs -/

/-- What holds of template and frame and is kept by every command holds of the frame after one more step. -/
theorem step_frame_induction {P : Frame → Prop} (command : ∀ c f, P f → P (commandFrame c f)) {s t : State}
    (h : step s = .next t) (template : P s.template) (frame : P s.frame) : P t.frame := by
  have hrun : P (stateAfter 1 s).frame := stateAfter_frame_induction command 1 s template frame
  rwa [stateAfter_succ h] at hrun

/-- Settles O28: agreement with the template outside the fields, which contains the header, and WF1 to WF4 read of the
frame are both kept by every command. -/
theorem frameInvariantIsKept : Obligations.FrameInvariantIsKept := by
  intro s t ⟨hwf, _, hpreserved, hframe⟩ h
  have htemplate : t.template = s.template := (step_frame h).1
  have hagree : AgreeOutsideFields t.frame s.template :=
    step_frame_induction (P := (AgreeOutsideFields · s.template)) (fun c _ => .commandFrame c) h (.refl _) hpreserved
  have hok : TemplateOk t.frame := step_frame_induction (fun c _ => templateOk_commandFrame c) h hwf hframe
  rw [← htemplate] at hwf hagree
  exact ⟨hwf, fun _ hk => hagree.header hk, hagree, hok⟩

theorem agree_stateAfter (n : Nat) {s : State} (hs : AtReset s) :
    AgreeOutsideFields (stateAfter n s).frame s.template :=
  frame_of_atReset (P := (AgreeOutsideFields · s.template)) (fun c _ => .commandFrame c) n hs (.refl _)

/-- Settles O31: the bits named are those outside the fields (`fieldBit_eq_false_iff`). -/
theorem templateBitsAreNeverWritten : Obligations.TemplateBitsAreNeverWritten :=
  fun n _ hs k i h13 h14 h21 h26 => agree_stateAfter n hs k i (fieldBit_eq_false_iff.2 ⟨h13, h14, h21, h26⟩)

/-! ### The encoder -/

theorem fan_eq_some_iff {f : Frame} {m : FanMode} :
    fan f = some m ↔ powerfull f = fanPowerfull m ∧ quiet f = fanQuiet m := by
  rw [fan]
  cases quiet f <;> cases powerfull f <;> cases m <;> decide

/-- R26: with the two bits exclusive the frame has a fan mode. -/
theorem fan_of_fanOk {f : Frame} (h : FanOk f) : ∃ m, fan f = some m := by
  rw [fan]
  cases hq : quiet f with
  | false =>
    cases powerfull f with
    | false => exact ⟨.auto, rfl⟩
    | true => exact ⟨.powerfull, rfl⟩
  | true =>
    cases hp : powerfull f with
    | false => exact ⟨.quiet, rfl⟩
    | true => exact absurd ⟨hp, hq⟩ h

theorem frameBit_writeBit_fin (f : Frame) (k : Fin 27) (i : Fin 8) (b : Bool) (k' : Fin 27) (i' : Fin 8) :
    frameBit (writeBit f k i b) k' i' = if k' = k ∧ i' = i then b else frameBit f k' i' := by
  simp only [frameBit_writeBit, Fin.ext_iff]

/-- The bits of the encoder's output (R86), byte 26 aside. -/
theorem frameBit_enc (t : Frame) (p : Bool) (v : BitVec 5) (h : Bool) (m : FanMode) {k : Fin 27} (hk : k ≠ 26)
    (i : Fin 8) :
    frameBit (enc t p v h m) k i =
      if k = 21 ∧ i = 5 then fanQuiet m
      else if k = 21 ∧ i = 0 then fanPowerfull m
      else if k = 14 ∧ i = 0 then h
      else if k = 14 ∧ 1 ≤ i ∧ i ≤ 5 then v.toNat.testBit (i - 1)
      else if k = 13 ∧ i = 0 then p
      else frameBit t k i := by
  rw [enc, frameBit_updateChecksum _ hk]
  simp only [frameBit_writeBit_fin, frameBit_writeTemp]
  rfl

theorem agree_enc (t : Frame) (p : Bool) (v : BitVec 5) (h : Bool) (m : FanMode) :
    AgreeOutsideFields (enc t p v h m) t := by
  intro k i hb
  rw [fieldBit_eq_false_iff] at hb
  obtain ⟨h13, h14, h21, h26⟩ := hb
  rw [frameBit_enc t p v h m h26]
  grind

/-- The encoder writes the fields it is given (R86). -/
theorem fieldsOf_enc (t : Frame) (p : Bool) (v : BitVec 5) (h : Bool) (m : FanMode) :
    fieldsOf (enc t p v h m) = ⟨p, v, h, fanPowerfull m, fanQuiet m⟩ := by
  rw [fieldsOf_eq_iff]
  simp only [frameBit_enc t p v h m (k := 13) (by decide), frameBit_enc t p v h m (k := 14) (by decide),
    frameBit_enc t p v h m (k := 21) (by decide)]
  refine ⟨rfl, fun j => ?_, rfl, rfl, rfl⟩
  fin_cases j <;> rfl

/-- A frame with a consistent checksum that agrees with the template outside its fields is the encoder's output on them. -/
theorem eq_enc {t f : Frame} {m : FanMode} (hagree : AgreeOutsideFields f t) (hsum : ChecksumOk f)
    (hm : fan f = some m) : f = enc t (power f) (temp f) (half f) m := by
  obtain ⟨hp, hq⟩ := fan_eq_some_iff.1 hm
  refine (hagree.trans (agree_enc t _ _ _ m).symm).eq_of_fieldsOf ?_ hsum (checksumOk_updateChecksum _)
  rw [fieldsOf_enc, fieldsOf, hp, hq]

/-- Settles O32: a reachable frame agrees with the template outside its fields, and its checksum and fan bits are valid. -/
theorem reachableFrameIsTheEncodersOutput : Obligations.ReachableFrameIsTheEncodersOutput := by
  intro n s hs hwf
  obtain ⟨hsum, -, hfan⟩ := frame_of_atReset (fun c _ => templateOk_commandFrame c) n hs hwf
  obtain ⟨m, hm⟩ := fan_of_fanOk hfan
  exact ⟨m, hm, eq_enc (agree_stateAfter n hs) hsum hm⟩

/-! ### The three mutators -/

/-- The commands that end with `updateChecksum` (R77): the mutators, but for a rejected SET_TEMP. -/
def refreshesChecksum : Instr → Bool
  | .setPower _ => true
  | .setTemp value _ => decide (tempAccepted value)
  | .setFan _ => true
  | .send => false
  | .getBit _ _ => false

/-- R25: such a command leaves a consistent checksum, whatever it finds. -/
theorem checksumOk_of_refreshesChecksum {c : Instr} (h : refreshesChecksum c = true) (f : Frame) :
    ChecksumOk (commandFrame c f) := by
  cases c with
  | setPower on => exact checksumOk_updateChecksum _
  | setTemp value half =>
    rw [commandFrame, tempFrame, if_pos (of_decide_eq_true h)]
    exact checksumOk_updateChecksum _
  | setFan mode => exact checksumOk_updateChecksum _
  | send => cases h
  | getBit k i => cases h

/-- Every other command leaves the frame (R44, R79). -/
theorem commandFrame_of_not_refreshesChecksum {c : Instr} (h : refreshesChecksum c = false) (f : Frame) :
    commandFrame c f = f := by
  cases c with
  | setPower on => cases h
  | setTemp value half => exact tempFrame_rejected (of_decide_eq_false h) half f
  | setFan mode => cases h
  | send => rfl
  | getBit k i => rfl

/-- Settles O17, from `frameBit_powerFrame`. -/
theorem setPowerWritesPowerAndPowerOffClearsTheFan : Obligations.SetPowerWritesPowerAndPowerOffClearsTheFan :=
  fun on s => ⟨powerFrame on s.frame, mutate_next _ s, fun _ i hk => frameBit_powerFrame on s.frame hk i,
    checksumOk_updateChecksum _, by cases on <;> rfl⟩

/-- Twice a value plus a bit: the bit, and above it the value's bits. -/
theorem testBit_two_mul_add_toNat (value : Nat) (b : Bool) (i : Nat) :
    (2 * value + b.toNat).testBit i = if i = 0 then b else value.testBit (i - 1) := by
  rw [← Nat.bit_val]
  cases i with
  | zero => exact Nat.testBit_bit_zero b value
  | succ j => exact Nat.testBit_bit_succ j b value

/-- R79 of the whole byte: bits 7 and 6 stay, the six others are `2*value + half`. -/
theorem tempFrame_tempByte {value : Nat} (hv : tempAccepted value) (half : Bool) (f : Frame) :
    (tempFrame value half f)[14] =
      (f[14] &&& 0xC0) ||| BitVec.ofNat 8 (2 * value + (storedHalf value half).toNat) := by
  have hhi : value ≤ 30 := hv.2
  refine BitVec.eq_of_getLsbD_eq fun i hi => ?_
  have hbit : (tempFrame value half f)[14].getLsbD i = _ := frameBit_tempFrame hv half f (k := 14) (by decide) ⟨i, hi⟩
  have hhigh : ∀ j, 5 ≤ j → value.testBit j = false := fun j hj =>
    Nat.testBit_lt_two_pow (lt_of_le_of_lt hhi (lt_of_lt_of_le (by decide) (Nat.pow_le_pow_right two_pos hj)))
  rw [hbit, BitVec.getLsbD_or, BitVec.getLsbD_and, BitVec.getLsbD_ofNat, testBit_two_mul_add_toNat]
  interval_cases i <;> simp [frameBit, hhigh]

/-- Settles O18: an accepted value bit by bit (`frameBit_tempFrame`), a rejected one leaves the frame. -/
theorem setTempWritesTemperatureOrNothing : Obligations.SetTempWritesTemperatureOrNothing := by
  intro value half s
  refine ⟨fun hout => ?_, fun hlo hhi => ?_, fun hv => if_pos (decide_eq_true (Nat.lt_succ_of_le hv))⟩
  · have hv : ¬(16 ≤ value ∧ value ≤ 30) := by omega
    rw [exec, execSetTemp, mutate_next, tempFrame_rejected hv]
  · have hv : tempAccepted value := ⟨hlo, hhi⟩
    refine ⟨tempFrame value half s.frame, mutate_next _ s, fun k h14 h26 => byte_eq_of_frameBit_eq fun i => ?_,
      tempFrame_tempByte hv half s.frame,
      checksumOk_of_refreshesChecksum (c := .setTemp value half) (decide_eq_true hv) s.frame⟩
    rw [frameBit_tempFrame hv half s.frame h26]
    simp only [h14, false_and, if_false]

/-- Settles O19, from `frameBit_fanFrame`. -/
theorem setFanWritesTheModeBits : Obligations.SetFanWritesTheModeBits := by
  refine fun mode s => ⟨fanFrame mode s.frame, mutate_next _ s, fun k i hk => ?_, checksumOk_updateChecksum _, ?_⟩
  · rw [frameBit_fanFrame mode s.frame hk]
    cases mode <;> rfl
  · cases mode <;> rfl

/-! ### Sessions, and the mutators' algebra -/

/-- Settles O41, by induction on the session. -/
theorem fieldsFollowTheCommands : Obligations.FieldsFollowTheCommands := by
  intro session
  induction session with
  | nil => exact fun _ => rfl
  | cons c rest ih => exact fun f => by rw [sessionFrame, ih, fieldsOf_commandFrame, List.foldl_cons]

theorem agree_sessionFrame (session : List Instr) (f : Frame) : AgreeOutsideFields (sessionFrame session f) f := by
  induction session generalizing f with
  | nil => exact .refl f
  | cons c rest ih => exact (ih _).trans (agree_commandFrame c f)

theorem checksumOk_sessionFrame (session : List Instr) {f : Frame} (h : ChecksumOk f) :
    ChecksumOk (sessionFrame session f) := by
  induction session generalizing f with
  | nil => exact h
  | cons c rest ih => exact ih (checksumOk_commandFrame c h)

/-- One command that refreshes the checksum is enough for the session (R25). -/
theorem checksumOk_of_any {session : List Instr} (h : session.any refreshesChecksum = true) (f : Frame) :
    ChecksumOk (sessionFrame session f) := by
  induction session generalizing f with
  | nil => cases h
  | cons c rest ih =>
    rw [List.any_cons, Bool.or_eq_true] at h
    obtain hc | hrest := h
    · exact checksumOk_sessionFrame rest (checksumOk_of_refreshesChecksum hc f)
    · exact ih hrest _

/-- Two sessions that refresh the checksum and have the same effect on the fields leave the same frame (R83). -/
theorem sessionFrame_eq {a b : List Instr} (ha : a.any refreshesChecksum = true) (hb : b.any refreshesChecksum = true)
    (hv : ∀ v, a.foldl (fun v i => commandFields i v) v = b.foldl (fun v i => commandFields i v) v) (f : Frame) :
    sessionFrame a f = sessionFrame b f := by
  refine ((agree_sessionFrame a f).trans (agree_sessionFrame b f).symm).eq_of_fieldsOf ?_
    (checksumOk_of_any ha f) (checksumOk_of_any hb f)
  rw [fieldsFollowTheCommands, fieldsFollowTheCommands, hv]

/-- Every command writes constants to fixed fields. -/
theorem commandFields_idem (c : Instr) (v : Fields) : commandFields c (commandFields c v) = commandFields c v := by
  cases c with
  | setPower on => cases on <;> rfl
  | setTemp value half =>
    by_cases h : tempAccepted value
    · simp only [commandFields, if_pos h]
    · simp only [commandFields, if_neg h]
  | setFan mode => rfl
  | send => rfl
  | getBit k i => rfl

/-- R83, the first law. -/
theorem commandFrame_idem (c : Instr) (f : Frame) : commandFrame c (commandFrame c f) = commandFrame c f := by
  cases h : refreshesChecksum c with
  | true => exact sessionFrame_eq (a := [c, c]) (b := [c]) (by simp [h]) (by simp [h]) (commandFields_idem c) f
  | false => exact commandFrame_of_not_refreshesChecksum h _

/-- R83: two commands that commute on the fields, one of which refreshes the checksum, commute on the frame. -/
theorem commandFrame_comm {c d : Instr} (h : refreshesChecksum c = true)
    (hv : ∀ v, commandFields c (commandFields d v) = commandFields d (commandFields c v)) (f : Frame) :
    commandFrame c (commandFrame d f) = commandFrame d (commandFrame c f) :=
  sessionFrame_eq (a := [d, c]) (b := [c, d]) (by simp [h]) (by simp [h]) hv f

/-- R83: a later command that overwrites the fields of an earlier one makes it void. -/
theorem commandFrame_absorb {c d : Instr} (h : refreshesChecksum c = true)
    (hv : ∀ v, commandFields c (commandFields d v) = commandFields c v) (f : Frame) :
    commandFrame c (commandFrame d f) = commandFrame c f :=
  sessionFrame_eq (a := [d, c]) (b := [c]) (by simp [h]) (by simp [h]) hv f

theorem power_powerFrame (on : Bool) (f : Frame) : power (powerFrame on f) = on :=
  frameBit_powerFrame on f (k := 13) (by decide) 0

theorem fan_fanFrame (m : FanMode) (f : Frame) : fan (fanFrame m f) = some m :=
  fan_eq_some_iff.2 ⟨frameBit_fanFrame m f (k := 21) (by decide) 0, frameBit_fanFrame m f (k := 21) (by decide) 5⟩

/-- Power off ends with fan mode AUTO (R78). -/
theorem fan_powerFrame_false (f : Frame) : fan (powerFrame false f) = some .auto :=
  fan_eq_some_iff.2 ⟨frameBit_powerFrame false f (k := 21) (by decide) 0,
    frameBit_powerFrame false f (k := 21) (by decide) 5⟩

/-- SET_TEMP writes none of the fields the other two mutators write. -/
theorem commandFields_comm_setTemp {c : Instr} (hc : ∀ v h, c ≠ .setTemp v h) (value : Nat) (half : Bool) (v : Fields) :
    commandFields c (commandFields (.setTemp value half) v) = commandFields (.setTemp value half) (commandFields c v) := by
  by_cases hv : tempAccepted value
  · simp only [commandFields, if_pos hv]
    cases c with
    | setPower on => cases on <;> rfl
    | setTemp value' half' => exact absurd rfl (hc value' half')
    | setFan mode => rfl
    | send => rfl
    | getBit k i => rfl
  · simp only [commandFields, if_neg hv]

/-- Settles O37: each law is one of the fields, carried over to the frames. -/
theorem mutatorsAreIdempotentAbsorbAndCommute : Obligations.MutatorsAreIdempotentAbsorbAndCommute := by
  refine ⟨commandFrame_idem, fun a b x y f hlo hhi => ?_, fun m n => ?_, fun p q f => ⟨power_powerFrame q _, ?_⟩,
    fun p v h => ?_, fun m v h => ?_, fun m => ?_, fun m f => ⟨fan_powerFrame_false _, fan_fanFrame m _⟩⟩
  · have hb : tempAccepted b := ⟨hlo, hhi⟩
    refine commandFrame_absorb (c := .setTemp b y) (d := .setTemp a x) (decide_eq_true hb) (fun v => ?_) f
    simp only [commandFields, if_pos hb]
    split <;> rfl
  · exact commandFrame_absorb (c := .setFan n) (d := .setFan m) rfl fun _ => rfl
  · rintro rfl
    exact commandFrame_absorb (c := .setPower false) (d := .setPower p) rfl (fun _ => by cases p <;> rfl) f
  · exact commandFrame_comm (c := .setPower p) (d := .setTemp v h) rfl (commandFields_comm_setTemp (fun _ _ => by simp) v h)
  · exact commandFrame_comm (c := .setFan m) (d := .setTemp v h) rfl (commandFields_comm_setTemp (fun _ _ => by simp) v h)
  · exact commandFrame_comm (c := .setFan m) (d := .setPower true) rfl fun _ => rfl

/-! ### The checksum in closed form -/

/-- What the fields contribute to the sum of the body, in 8-bit arithmetic: their bits at their places in bytes 13, 14
and 21. -/
def fieldSum (v : Fields) : Byte :=
  BitVec.ofNat 8 v.power.toNat + BitVec.ofNat 8 (2 * v.temp.toNat + v.half.toNat) +
    (BitVec.ofNat 8 v.powerfull.toNat + 32 * BitVec.ofNat 8 v.quiet.toNat)

theorem byteThirteen_split (b : Byte) : b = (b &&& 0xFE#8) + BitVec.ofNat 8 (b.getLsbD 0).toNat := by
  revert b; decide

theorem byteFourteen_fields (b : Byte) :
    b &&& 0x3F#8 = BitVec.ofNat 8 (2 * (b.extractLsb' 1 5).toNat + (b.getLsbD 0).toNat) := by
  revert b; decide

theorem byteFourteen_split (b : Byte) : b = (b &&& 0xC0#8) + (b &&& 0x3F#8) := by
  revert b; decide

theorem byteTwentyOne_split (b : Byte) :
    b = (b &&& 0xDE#8) + (BitVec.ofNat 8 (b.getLsbD 0).toNat + 32 * BitVec.ofNat 8 (b.getLsbD 5).toNat) := by
  revert b; decide

/-- The three bytes that hold fields are their template bits and the fields' contribution. -/
theorem fieldBytes_split (f : Frame) :
    f[13] + f[14] + f[21] =
      (f[13] &&& 0xFE#8) + (f[14] &&& 0xC0#8) + (f[21] &&& 0xDE#8) + fieldSum (fieldsOf f) := by
  have h13 : f[13] = (f[13] &&& 0xFE#8) + BitVec.ofNat 8 (power f).toNat := byteThirteen_split f[13]
  have h14 : f[14] = (f[14] &&& 0xC0#8) + BitVec.ofNat 8 (2 * (temp f).toNat + (half f).toNat) :=
    (byteFourteen_split f[14]).trans (congrArg _ (byteFourteen_fields f[14]))
  have h21 : f[21] = (f[21] &&& 0xDE#8) +
      (BitVec.ofNat 8 (powerfull f).toNat + 32 * BitVec.ofNat 8 (quiet f).toNat) := byteTwentyOne_split f[21]
  rw [fieldSum, fieldsOf]
  linear_combination h13 + h14 + h21

/-- Bits that agree under a mask. -/
theorem AgreeOutsideFields.and_mask {f g : Frame} (h : AgreeOutsideFields f g) (k : Fin 27) {m : Byte}
    (hm : ∀ i : Fin 8, m.getLsbD i = true → fieldBit k i = false) : f[k] &&& m = g[k] &&& m := by
  refine BitVec.eq_of_getLsbD_eq fun i hi => ?_
  rw [BitVec.getLsbD_and, BitVec.getLsbD_and]
  cases hb : m.getLsbD i with
  | false => rw [Bool.and_false, Bool.and_false]
  | true => rw [Bool.and_true, Bool.and_true]; exact h k ⟨i, hi⟩ (hm ⟨i, hi⟩ hb)

theorem checksum_eq_bytes (f : Frame) :
    checksum f = f[8] + f[9] + f[10] + f[11] + f[12] + f[13] + f[14] + f[15] + f[16] + f[17] + f[18] + f[19] + f[20] +
      f[21] + f[22] + f[23] + f[24] + f[25] := by
  simp only [checksum, bodySum_eq_bytes, BitVec.ofNat_add, BitVec.ofNat_toNat, BitVec.setWidth_eq]

theorem csum_eq_checksum {f : Frame} (h : ChecksumOk f) : csum f = checksum f :=
  BitVec.eq_of_toNat_eq (h.trans (toNat_checksum f).symm)

/-- Between frames that agree outside the fields, the checksum moves as the fields' contribution does. -/
theorem AgreeOutsideFields.csum_eq {f g : Frame} (h : AgreeOutsideFields f g) (hf : ChecksumOk f) (hg : ChecksumOk g) :
    csum f = csum g + (fieldSum (fieldsOf f) - fieldSum (fieldsOf g)) := by
  have hbyte : ∀ k (_ : k < 27), k ≠ 13 → k ≠ 14 → k ≠ 21 → k ≠ 26 → f[k] = g[k] := fun k hk h13 h14 h21 h26 =>
    h.byte (k := ⟨k, hk⟩) (Fin.ne_of_val_ne h13) (Fin.ne_of_val_ne h14) (Fin.ne_of_val_ne h21) (Fin.ne_of_val_ne h26)
  have h13 : f[13] &&& 0xFE#8 = g[13] &&& 0xFE#8 := h.and_mask 13 (by decide)
  have h14 : f[14] &&& 0xC0#8 = g[14] &&& 0xC0#8 := h.and_mask 14 (by decide)
  have h21 : f[21] &&& 0xDE#8 = g[21] &&& 0xDE#8 := h.and_mask 21 (by decide)
  rw [csum_eq_checksum hf, csum_eq_checksum hg, checksum_eq_bytes, checksum_eq_bytes]
  simp (disch := decide) only [hbyte]
  linear_combination fieldBytes_split f - fieldBytes_split g + h13 + h14 + h21

/-- R85: what a command does to the checksum it does through the fields. -/
theorem csum_commandFrame (c : Instr) {f : Frame} (h : ChecksumOk f) :
    csum (commandFrame c f) = csum f + (fieldSum (commandFields c (fieldsOf f)) - fieldSum (fieldsOf f)) := by
  rw [(agree_commandFrame c f).csum_eq (checksumOk_commandFrame c h) h, fieldsOf_commandFrame]

/-- Settles O38: `csum_commandFrame`, the fields' contributions written out. -/
theorem checksumMovesWithTheFields : Obligations.ChecksumMovesWithTheFields := by
  intro f hf
  refine ⟨(csum_commandFrame (.setPower true) hf).trans ?_, (csum_commandFrame (.setPower false) hf).trans ?_,
    fun v h hlo hhi => (csum_commandFrame (.setTemp v h) hf).trans ?_,
    fun m => (csum_commandFrame (.setFan m) hf).trans ?_⟩
  · have h1 : (1 : Byte) = 1#8 := rfl
    simp only [commandFields, fieldSum, fieldsOf, Bool.toNat_true, h1]
    ring
  · simp only [commandFields, fieldSum, fieldsOf, Bool.toNat_false, BitVec.mul_zero, BitVec.add_zero, BitVec.zero_add]
    ring
  · have hv : tempAccepted v := ⟨hlo, hhi⟩
    have hn : (BitVec.ofNat 5 v).toNat = v := Nat.mod_eq_of_lt (lt_of_le_of_lt hhi (by decide))
    have h14 : f[14] &&& 0x3F = BitVec.ofNat 8 (2 * (temp f).toNat + (half f).toNat) := byteFourteen_fields f[14]
    have hh : storedHalf v h = if v = 30 then false else h := rfl
    simp only [commandFields, if_pos hv, fieldSum, fieldsOf, hn, h14, hh]
    ring
  · have hp : (fanPowerfull m).toNat = fanModeNumber m % 2 := by cases m <;> rfl
    have hq : (fanQuiet m).toNat = fanModeNumber m / 2 := by cases m <;> rfl
    simp only [commandFields, fieldSum, fieldsOf, hp, hq]
    ring

/-! ### The status outputs -/

/-- The status outputs are functions of the fields (R84). -/
theorem status_of_fieldsOf {s : State} {v : Fields} (h : fieldsOf s.frame = v) :
    stPower s = v.power ∧ stTemp s = v.temp ∧ stHalf s = v.half ∧
      stFan s = BitVec.ofBool v.quiet ++ BitVec.ofBool v.powerfull := by
  subst h
  exact ⟨rfl, rfl, rfl, rfl⟩

/-- After a command they show the fields it gives (R84, R86). -/
theorem exec_fieldsOf (c : Instr) (s : State) :
    ∃ t, exec c s = .next t ∧ fieldsOf t.frame = commandFields c (fieldsOf s.frame) := by
  obtain ⟨t, ht, hframe⟩ := exec_next c s
  exact ⟨t, ht, by rw [hframe, fieldsOf_commandFrame]⟩

/-- Settles O40, from the fields each command gives. -/
theorem statusOutputsReadBackTheCommands : Obligations.StatusOutputsReadBackTheCommands := by
  refine ⟨fun v h s hlo hhi => ?_, fun on s => ?_, fun m s => ?_⟩
  · obtain ⟨t, ht, hv⟩ := exec_fieldsOf (.setTemp v h) s
    rw [commandFields, if_pos ⟨hlo, hhi⟩] at hv
    obtain ⟨hpower, htemp, hhalf, hfan⟩ := status_of_fieldsOf hv
    refine ⟨t, ht, ?_, ?_, hpower, hfan⟩
    · rw [htemp]
      exact Nat.mod_eq_of_lt (lt_of_le_of_lt hhi (by decide))
    · rw [hhalf, storedHalf]
      by_cases h30 : v = 30 <;> simp [h30, tempMax]
  · obtain ⟨t, ht, hv⟩ := exec_fieldsOf (.setPower on) s
    obtain ⟨hpower, htemp, hhalf, hfan⟩ := status_of_fieldsOf hv
    refine ⟨t, ht, ?_⟩
    cases on with
    | true => exact ⟨hpower, hfan, htemp, hhalf⟩
    | false =>
      have hauto : stFan t = 0 := BitVec.eq_of_toNat_eq (by rw [hfan, toNat_ofBool_append]; rfl)
      exact ⟨hpower, hauto, htemp, hhalf⟩
  · obtain ⟨t, ht, hv⟩ := exec_fieldsOf (.setFan m) s
    obtain ⟨hpower, htemp, hhalf, hfan⟩ := status_of_fieldsOf hv
    refine ⟨t, ht, ?_, hpower, htemp, hhalf⟩
    rw [hfan, toNat_ofBool_append]
    cases m <;> rfl

end Sys2Proof.Machine

/-!
PROOFS of 43_pulse_transmitter.md's statements (O26, O45, O6, O23, O24, O43, O44, O3, O4, O20, O25, O27). First the
sequencer's table, an equation per line, and from it the invariant of the sequencer and a transmission tick by tick; then
the ports; then the trace: a list of mark and space pairs, which run-length encoding cannot merge, and what any additive
measure of intervals makes of it.
-/

namespace Sys2Proof.Machine

/-! ### The sequencer's table (R100) -/

theorem seqTick_of_one_lt {s : State} (h : 1 < s.cnt) : seqTick s = s.withSeq s.ph s.bi s.bt (s.cnt - 1) := if_pos h

theorem seqTick_of_le_one {s : State} (h : s.cnt ≤ 1) : seqTick s = nextInterval s := if_neg (by omega)

theorem nextInterval_startMark {s : State} (h : s.ph = .startMark) :
    nextInterval s = s.withSeq .startSpace s.bi s.bt tStartSpace := by
  simp [nextInterval, h]

theorem nextInterval_startSpace {s : State} (h : s.ph = .startSpace) :
    nextInterval s = s.withSeq .bitMark s.bi s.bt tBitMark := by
  simp [nextInterval, h]

theorem nextInterval_bitMark {s : State} (h : s.ph = .bitMark) :
    nextInterval s = s.withSeq .bitSpace s.bi s.bt (bitSpace (frameBit s.frame s.bi s.bt)) := by
  simp [nextInterval, h]

/-- A next bit in the same byte. -/
theorem nextInterval_bitSpace_bit {s : State} (h : s.ph = .bitSpace) (ht : s.bt < 7) :
    nextInterval s = s.withSeq .bitMark s.bi (s.bt + 1) tBitMark := by
  simp [nextInterval, h, ht]

/-- A next byte in the same subframe. -/
theorem nextInterval_bitSpace_byte {s : State} (h : s.ph = .bitSpace) (ht : ¬s.bt < 7)
    (hi : s.bi ≠ hdrLast ∧ s.bi ≠ bodyLast) : nextInterval s = s.withSeq .bitMark (s.bi + 1) 0 tBitMark := by
  simp [nextInterval, h, ht, hi]

/-- The last bit of a subframe. -/
theorem nextInterval_bitSpace_last {s : State} (h : s.ph = .bitSpace) (ht : ¬s.bt < 7)
    (hi : s.bi = hdrLast ∨ s.bi = bodyLast) : nextInterval s = s.withSeq .stopMark s.bi 0 tStopMark := by
  have hn : ¬(s.bi ≠ hdrLast ∧ s.bi ≠ bodyLast) := by tauto
  simp only [nextInterval, h, ht, hn, if_false]

theorem nextInterval_stopMark {s : State} (h : s.ph = .stopMark) :
    nextInterval s = s.withSeq .stopSpace s.bi s.bt tStopSpace := by
  simp [nextInterval, h]

/-- The body follows the header. -/
theorem nextInterval_stopSpace_header {s : State} (h : s.ph = .stopSpace) (hi : s.bi = hdrLast) :
    nextInterval s = s.withSeq .startMark bodyFirst 0 tStartMark := by
  simp [nextInterval, h, hi]

/-- The end of the transmission. -/
theorem nextInterval_stopSpace_end {s : State} (h : s.ph = .stopSpace) (hi : s.bi ≠ hdrLast) :
    nextInterval s = s.withSeq .idle 0 0 0 := by
  simp [nextInterval, h, hi]

theorem position_of_eq_withSeq {s t : State} {ph : Phase} {bi : Fin 27} {bt : Fin 8} {cnt : Nat}
    (h : t = s.withSeq ph bi bt cnt) : t.ph = ph ∧ t.bi = bi ∧ t.bt = bt ∧ t.cnt = cnt := by
  subst h
  exact ⟨rfl, rfl, rfl, rfl⟩

theorem bitSpace_frameBit (f : Frame) (k : Fin 27) (i : Fin 8) :
    bitSpace (frameBit f k i) = if f[k].toNat / 2 ^ i.val % 2 = 1 then 1300 else 440 := by
  simp [bitSpace, frameBit_eq, tSpace1, tSpace0]

/-- Settles O23, line by line of the table. -/
theorem busyTickFollowsTheSequencerTable : Obligations.BusyTickFollowsTheSequencerTable := by
  intro s hb hr
  refine ⟨_, step_busy hr hb, seqTick_frame _, fun h => ?_, fun h => ?_⟩
  · exact position_of_eq_withSeq (seqTick_of_one_lt (s := s.nextTick) h)
  · rw [seqTick_of_le_one (s := s.nextTick) h]
    refine ⟨fun hp => position_of_eq_withSeq (nextInterval_startMark hp),
      fun hp => position_of_eq_withSeq (nextInterval_startSpace hp), fun hp => ?_, fun hp ht => ?_,
      fun hp ht h7 h26 => ?_, fun hp ht hi => ?_, fun hp => position_of_eq_withSeq (nextInterval_stopMark hp),
      fun hp hi => position_of_eq_withSeq (nextInterval_stopSpace_header hp (Fin.ext hi)),
      fun hp hi => position_of_eq_withSeq (nextInterval_stopSpace_end hp (Fin.val_ne_iff.1 hi))⟩
    · rw [← bitSpace_frameBit]
      exact position_of_eq_withSeq (nextInterval_bitMark hp)
    · rw [nextInterval_bitSpace_bit (s := s.nextTick) hp ht]
      exact ⟨rfl, rfl, Fin.val_add_one_of_lt ht, rfl⟩
    · rw [nextInterval_bitSpace_byte (s := s.nextTick) hp (show ¬s.bt < 7 by omega)
        ⟨Fin.val_ne_iff.1 h7, Fin.val_ne_iff.1 h26⟩]
      exact ⟨rfl, Fin.val_add_one_of_lt (show s.bi < 26 by omega), rfl, rfl⟩
    · exact position_of_eq_withSeq (nextInterval_bitSpace_last hp (show ¬s.bt < 7 by omega)
        (hi.imp (fun h => Fin.ext h) fun h => Fin.ext h))

/-- Settles O24, by induction on the ticks: each leaves the interval one tick shorter and everything else as it was. -/
theorem intervalsAreHeldForTheirDuration : Obligations.IntervalsAreHeldForTheirDuration := by
  intro n
  induction n with
  | zero => exact fun s _ _ _ => ⟨rfl, rfl, rfl, rfl, rfl, rfl⟩
  | succ n ih =>
    intro s hb hn hr
    have ht : step s = .next (s.nextTick.withSeq s.ph s.bi s.bt (s.cnt - 1)) :=
      (step_busy (rst_of_noReset hr) hb).trans
        (congrArg _ (seqTick_of_one_lt (s := s.nextTick) (show 1 < s.cnt by omega)))
    obtain ⟨hph, hbi, hbt, hcnt, hir, hframe⟩ :=
      ih (s.nextTick.withSeq s.ph s.bi s.bt (s.cnt - 1)) hb (show n < s.cnt - 1 by omega) (noReset_step hr ht)
    rw [stateAfter_succ ht]
    exact ⟨hph, hbi, hbt, hcnt.trans (show s.cnt - 1 - n = s.cnt - (n + 1) by omega), hir, hframe⟩

/-! ### The sequencer's invariant (R97) -/

theorem phaseMax_le (ph : Phase) : phaseMax ph ≤ 10000 := by cases ph <;> decide

theorem bitSpace_le_phaseMax (b : Bool) : bitSpace b ≤ phaseMax .bitSpace := by cases b <;> decide

theorem seqInv_withSeq_idle (s : State) : SeqInv (s.withSeq .idle 0 0 0) := by simp [SeqInv]

/-- A busy position meets the invariant if its interval is neither over nor longer than its phase's longest, and it is at
its place in a start or stop bit. -/
theorem seqInv_withSeq (s : State) {ph : Phase} {bi : Fin 27} {bt : Fin 8} {cnt : Nat} (hb : ph ≠ .idle) (hpos : 0 < cnt)
    (hmax : cnt ≤ phaseMax ph) (hstart : ph = .startMark ∨ ph = .startSpace → (bi = 0 ∨ bi = 8) ∧ bt = 0)
    (hstop : ph = .stopMark ∨ ph = .stopSpace → (bi = 7 ∨ bi = 26) ∧ bt = 0) : SeqInv (s.withSeq ph bi bt cnt) :=
  ⟨⟨fun h => absurd h hb, fun h => absurd h hpos.ne'⟩, hmax.trans (phaseMax_le ph), hmax, fun h => absurd h hb, hstart,
    hstop⟩

theorem seqInv_bitMark (s : State) (bi : Fin 27) (bt : Fin 8) : SeqInv (s.withSeq .bitMark bi bt tBitMark) :=
  seqInv_withSeq s (by decide) (by decide) (by decide) (by simp) (by simp)

theorem seqInv_startMark (s : State) {bi : Fin 27} (hi : bi = 0 ∨ bi = 8) :
    SeqInv (s.withSeq .startMark bi 0 tStartMark) :=
  seqInv_withSeq s (by decide) (by decide) (by decide) (fun _ => ⟨hi, rfl⟩) (by simp)

theorem seqInv_nextInterval {s : State} (h : SeqInv s) : SeqInv (nextInterval s) := by
  obtain ⟨-, -, -, -, hstart, hstop⟩ := id h
  cases hp : s.ph with
  | idle => simpa only [nextInterval, hp] using h
  | startMark =>
    rw [nextInterval_startMark hp]
    exact seqInv_withSeq s (by decide) (by decide) (by decide) (fun _ => hstart (.inl hp)) (by simp)
  | startSpace =>
    rw [nextInterval_startSpace hp]
    exact seqInv_bitMark s _ _
  | bitMark =>
    rw [nextInterval_bitMark hp]
    exact seqInv_withSeq s (by decide) (bitSpace_pos _) (bitSpace_le_phaseMax _) (by simp) (by simp)
  | bitSpace =>
    by_cases ht : s.bt < 7
    · rw [nextInterval_bitSpace_bit hp ht]
      exact seqInv_bitMark s _ _
    · by_cases hi : s.bi = hdrLast ∨ s.bi = bodyLast
      · rw [nextInterval_bitSpace_last hp ht hi]
        exact seqInv_withSeq s (by decide) (by decide) (by decide) (by simp) fun _ => ⟨hi, rfl⟩
      · rw [nextInterval_bitSpace_byte hp ht (not_or.1 hi)]
        exact seqInv_bitMark s _ _
  | stopMark =>
    rw [nextInterval_stopMark hp]
    exact seqInv_withSeq s (by decide) (by decide) (by decide) (by simp) fun _ => hstop (.inl hp)
  | stopSpace =>
    by_cases hi : s.bi = hdrLast
    · rw [nextInterval_stopSpace_header hp hi]
      exact seqInv_startMark s (.inr rfl)
    · rw [nextInterval_stopSpace_end hp hi]
      exact seqInv_withSeq_idle s

theorem seqInv_seqTick {s : State} (h : SeqInv s) : SeqInv (seqTick s) := by
  by_cases hc : 1 < s.cnt
  · obtain ⟨hidle, -, hmax, -, hstart, hstop⟩ := h
    rw [seqTick_of_one_lt hc]
    exact seqInv_withSeq s (fun hp => by have := hidle.1 hp; omega) (by omega) (by omega) hstart hstop
  · rw [seqTick_of_le_one (by omega)]
    exact seqInv_nextInterval h

theorem seqInv_exec {i : Instr} {s t : State} (h : SeqInv s) (he : exec i s = .next t) : SeqInv t := by
  obtain ⟨-, rfl⟩ | ⟨-, rfl⟩ | ⟨_, _, _, -, -, rfl⟩ | ⟨_, _, -, -, rfl⟩ := exec_cases he
  · exact h
  · exact seqInv_startMark s (.inl rfl)
  · exact h
  · exact h

/-- Settles O26, branch by branch of the step. -/
theorem sequencerInvariantIsKept : Obligations.SequencerInvariantIsKept := by
  intro s t h ht
  obtain ⟨-, rfl⟩ | ⟨-, -, -, rfl⟩ | ⟨-, -, _, _, -, -, he⟩ | ⟨-, -, rfl⟩ := step_cases ht
  · exact seqInv_withSeq_idle _
  · exact h
  · exact seqInv_exec (s := s.nextTick) h he
  · exact seqInv_seqTick (s := s.nextTick) h

/-- Settles O27: the reset state is an idle position. -/
theorem sequencerInvariantAtReset : Obligations.SequencerInvariantAtReset := seqInv_withSeq_idle State.reset

theorem seqInv_stateAfter {s : State} (h : SeqInv s) (n : Nat) : SeqInv (stateAfter n s) := by
  induction n generalizing s with
  | zero => exact h
  | succ n ih =>
    obtain ⟨t, ht⟩ := step_next s
    rw [stateAfter_succ ht]
    exact ih (sequencerInvariantIsKept s t h ht)

/-! ### The ports (R96, R98, R102) -/

theorem accepted_eq_some_iff {s : State} {w : CmdWord} :
    accepted s = some w ↔ s.ph = .idle ∧ rst s = false ∧ offer s = some w := by
  simp [accepted, cmdReady_iff, and_assoc]

theorem nextOffers_waiting {s : State} {w : CmdWord} (ho : offer s = some w) (hr : cmdReady s = false) :
    nextOffers s = s.cmdIn := by
  simp [nextOffers, ho, hr]

theorem nextOffers_moving {s : State} (h : offer s = none ∨ cmdReady s = true) : nextOffers s = s.cmdIn.tail := by
  obtain ho | hr := h
  · simp [nextOffers, ho]
  · simp [nextOffers, hr]

/-- The host's offers move on by their own rule, whatever the tick does. -/
theorem step_cmdIn {s t : State} (h : step s = .next t) : t.cmdIn = nextOffers s := by
  obtain ⟨-, rfl⟩ | ⟨-, -, -, rfl⟩ | ⟨-, -, _, _, -, -, he⟩ | ⟨-, -, rfl⟩ := step_cases h
  · rfl
  · rfl
  · exact (exec_ports he).2
  · exact seqTick_cmdIn _

/-- Settles O6: the offers after a step are the next offers. -/
theorem waitingCommandsAreHeld : Obligations.WaitingCommandsAreHeld := by
  intro s
  obtain ⟨t, ht⟩ := step_next s
  exact ⟨t, ht, step_rstIn ht, fun _ ho hr => (step_cmdIn ht).trans (nextOffers_waiting ho hr),
    fun h => (step_cmdIn ht).trans (nextOffers_moving h)⟩

/-- Settles O3: the command branch of the step, and the offer taken. -/
theorem stepRunsTheDecodedCommand : Obligations.StepRunsTheDecodedCommand := by
  intro s w i hr hi ho hd
  refine ⟨step_command hr hi ho hd, ?_⟩
  rw [State.nextTick, nextOffers_idle hr hi]

/-- Settles O4, branch by branch. -/
theorem ticksWithoutAnAcceptedCommand : Obligations.TicksWithoutAnAcceptedCommand :=
  fun _ hr => ⟨step_idle hr, fun _ _ => step_illegal hr, step_busy hr⟩

/-- Settles O25: a busy block is not ready, and its tick writes neither the frame nor the offers. -/
theorem commandsWaitWhileBusy : Obligations.CommandsWaitWhileBusy := by
  intro s w hbusy hr ho
  have hb := (busy_iff s).1 hbusy
  have hready : cmdReady s = false := Bool.eq_false_iff.2 fun h => hb ((cmdReady_iff s).1 h).1
  have ht := step_busy hr hb
  have hkept := (step_cmdIn ht).trans (nextOffers_waiting ho hready)
  refine ⟨by simp [accepted, hready], _, ht, seqTick_frame _, ?_, hkept⟩
  rw [offer, hkept]
  exact ho

/-! ### A transmission, tick by tick (R99, R103) -/

/-- The state after the tick in which SEND is accepted. -/
def State.sent (s : State) : State := s.nextTick.withSeq .startMark 0 0 tStartMark

theorem step_send {s : State} (h : accepted s = some 0x4000) : step s = .next s.sent := by
  obtain ⟨hi, hr, ho⟩ := accepted_eq_some_iff.1 h
  exact step_command hr hi ho (i := .send) rfl

theorem pending_sent (s : State) : pending s.sent = trace s.frame := startMark_toCome_header s.frame

theorem cntPos_sent (s : State) : CntPos s.sent := cntPos_withSeq _ _ _ _ (by decide)

theorem seqInv_sent (s : State) : SeqInv s.sent := seqInv_startMark _ (.inl rfl)

/-- Settles O20: the meaning of SEND, and the step that accepts it. -/
theorem sendLoadsTheStartMark : Obligations.SendLoadsTheStartMark :=
  ⟨fun _ => rfl, fun _ h => ⟨_, step_send h, rfl, rfl, rfl, rfl, rfl, rfl, rfl⟩⟩

theorem length_waveform (n : Nat) (s : State) : (waveform n s).length = n := by
  induction n generalizing s with
  | zero => rfl
  | succ n ih =>
    obtain ⟨t, ht⟩ := step_next s
    rw [waveform_succ ht, List.length_cons, ih]

section Transmission
variable {s : State} (hc : CntPos s) (hr : NoReset (duration (pending s)) s)
include hc hr

/-- The block is busy as long as anything is pending. -/
theorem busy_stateAfter_of_lt_pending : ∀ j < duration (pending s), busy (stateAfter j s) = true := by
  refine transmission_induction (P := fun n s => ∀ j < n, busy (stateAfter j s) = true)
    (fun _ _ => nofun) (fun n s hb _ ht _ ih => ?_) s hc hr
  rintro (_ | j) hj
  · exact (busy_iff s).2 hb
  · rw [stateAfter_succ ht]
    exact ih j (Nat.lt_of_succ_lt_succ hj)

/-- At no time until its end does a transmission write the frame. -/
theorem frame_stateAfter_of_le_pending : ∀ j ≤ duration (pending s), (stateAfter j s).frame = s.frame := by
  refine transmission_induction (P := fun n s => ∀ j ≤ n, (stateAfter j s).frame = s.frame)
    (fun _ _ j hj => ?_) (fun n s _ _ ht _ ih => ?_) s hc hr
  · rw [Nat.le_zero.1 hj, stateAfter]
  · rintro (_ | j) hj
    · rfl
    · rw [stateAfter_succ ht, ih j (Nat.le_of_succ_le_succ hj), seqTick_frame, State.nextTick_frame]

end Transmission

/-! ### Mark and space in turn (R89) -/

/-- Pairs of a mark and a space, none of them empty. -/
inductive MarkSpace : List Interval → Prop
  | nil : MarkSpace []
  | pair {m n : Nat} {t : List Interval} (hm : 0 < m) (hn : 0 < n) (ht : MarkSpace t) :
    MarkSpace ((true, m) :: (false, n) :: t)

theorem MarkSpace.append {t u : List Interval} (ht : MarkSpace t) (hu : MarkSpace u) : MarkSpace (t ++ u) := by
  induction ht with
  | nil => exact hu
  | pair hm hn _ ih => exact .pair hm hn ih

theorem MarkSpace.flatMap {α : Type} {g : α → List Interval} (h : ∀ a, MarkSpace (g a)) (l : List α) :
    MarkSpace (l.flatMap g) := by
  induction l with
  | nil => exact .nil
  | cons a l ih => exact (h a).append ih

theorem markSpace_subframe (bytes : List Byte) : MarkSpace (subframe bytes) :=
  have hstart : MarkSpace startSymbol := .pair (by decide) (by decide) .nil
  have hbit (b : Bool) : MarkSpace (bitSymbol b) := .pair (by decide) (bitSpace_pos b) .nil
  have hstop : MarkSpace stopSymbol := .pair (by decide) (by decide) .nil
  (hstart.append (.flatMap (fun _ => .flatMap (fun _ => hbit _) _) bytes)).append hstop

theorem markSpace_trace (f : Frame) : MarkSpace (trace f) := (markSpace_subframe _).append (markSpace_subframe _)

/-- A run of a level other than the one that comes next is one interval. -/
theorem runLengths_replicate_append {b : Bool} {n : Nat} (hn : 0 < n) {rest : List Bool}
    (h : ∀ p ∈ (runLengths rest).head?, p.1 ≠ b) :
    runLengths (List.replicate n b ++ rest) = (b, n) :: runLengths rest := by
  induction n, hn using Nat.le_induction with
  | base =>
    cases hl : runLengths rest with
    | nil => simp [runLengths, hl]
    | cons p l =>
      have hp : b ≠ p.1 := (h p (by simp [hl])).symm
      simp [runLengths, hl, hp]
  | succ n _ ih => simp [List.replicate_succ, runLengths, ih]

theorem MarkSpace.runLengths_levels {t : List Interval} (h : MarkSpace t) : runLengths (levels t) = t := by
  induction h with
  | nil => rfl
  | @pair m n t hm hn ht ih =>
    have hmark : ∀ p ∈ (runLengths (levels t)).head?, p.1 ≠ false := by
      rw [ih]
      cases ht <;> simp
    have hspace : runLengths (levels ((false, n) :: t)) = (false, n) :: t := by
      rw [levels_cons, runLengths_replicate_append hn hmark, ih]
    rw [levels_cons, runLengths_replicate_append hm (by rw [hspace]; simp), hspace]

/-- Settles O44: a trace is pairs of a mark and a space. -/
theorem traceIntervalsCannotMerge : Obligations.TraceIntervalsCannotMerge :=
  fun f => (markSpace_trace f).runLengths_levels

/-- Settles O45: the tick that accepts SEND leaves the trace pending; the block plays it and is then idle, where the
sequencer's invariant gives the position. -/
theorem transmissionEmitsTheTrace : Obligations.TransmissionEmitsTheTrace := by
  intro s hacc d hrst
  have hstep := step_send hacc
  have hd : duration (pending s.sent) = d := congrArg duration (pending_sent s)
  have hpos := cntPos_sent s
  have hr : NoReset (duration (pending s.sent)) s.sent := hd ▸ hrst
  have hbusy := busy_stateAfter_of_lt_pending hpos hr
  have hframe := frame_stateAfter_of_le_pending hpos hr
  have hidle := stateAfter_pending_ph hpos hr
  have hwave := waveform_pending hpos hr
  rw [hd] at hbusy hframe hidle hwave
  have hlevels : waveform d s = levels (trace s.frame) := by
    rw [← waveform_succ hstep, waveform_add, pending_sent] at hwave
    exact List.append_inj_left' hwave (length_waveform _ _)
  obtain ⟨hcnt, -, -, hposition, -, -⟩ := seqInv_stateAfter (seqInv_sent s) d
  rw [stateAfter_succ hstep]
  refine ⟨fun j h1 hj => ?_, Bool.eq_false_iff.2 fun hb => (busy_iff _).1 hb hidle,
    hlevels ▸ traceIntervalsCannotMerge s.frame, fun j hj => ?_, hidle, (hposition hidle).1, (hposition hidle).2,
    hcnt.1 hidle⟩
  · obtain ⟨j, rfl⟩ := Nat.exists_eq_add_of_le' h1
    rw [stateAfter_succ hstep]
    exact hbusy j hj
  · cases j with
    | zero => rfl
    | succ j =>
      rw [stateAfter_succ hstep]
      exact hframe j (Nat.le_of_succ_le_succ hj)

/-! ### Measures of a trace (R92) -/

theorem length_headerBytes (f : Frame) : (f.toList.take 8).length = 8 := by simp

theorem length_bodyBytes (f : Frame) : (f.toList.drop 8).length = 19 := by simp

theorem ones_eq (f : Frame) :
    ones f = ((f.toList.take 8).map byteOnes).sum + ((f.toList.drop 8).map byteOnes).sum := by
  rw [← List.sum_append, ← List.map_append, List.take_append_drop, ones]

section Measure
variable {μ : List Interval → Nat} {both bit0 bit1 : Nat}

/-- `t` measures as `n` data bits of which `k` are 1, where a 0 measures `bit0` and a 1 measures `bit1`. -/
def MeasuresAsBits (μ : List Interval → Nat) (bit0 bit1 : Nat) (t : List Interval) (n k : Nat) : Prop :=
  μ t + k * bit0 = n * bit0 + k * bit1

theorem measuresAsBits_bitSymbol (hzero : μ (bitSymbol false) = bit0) (hone : μ (bitSymbol true) = bit1) (b : Bool) :
    MeasuresAsBits μ bit0 bit1 (bitSymbol b) 1 b.toNat := by
  cases b <;> simp [MeasuresAsBits, hzero, hone, Nat.add_comm]

variable (hμ : ∀ t u, μ (t ++ u) = μ t + μ u)
include hμ

theorem MeasuresAsBits.flatMap {α : Type} {g : α → List Interval} {n : Nat} {k : α → Nat}
    (h : ∀ a, MeasuresAsBits μ bit0 bit1 (g a) n (k a)) (l : List α) :
    MeasuresAsBits μ bit0 bit1 (l.flatMap g) (l.length * n) (l.map k).sum := by
  induction l with
  | nil =>
    have hnil : μ [] = 0 := by simpa using hμ [] []
    simp [MeasuresAsBits, hnil]
  | cons a l ih =>
    have ha := h a
    simp only [MeasuresAsBits, List.flatMap_cons, hμ, List.length_cons, List.map_cons, List.sum_cons] at ha ih ⊢
    linarith

variable (hboth : μ startSymbol + μ stopSymbol = both) (hzero : μ (bitSymbol false) = bit0)
  (hone : μ (bitSymbol true) = bit1)
include hboth hzero hone

/-- What an additive measure makes of a subframe: its start and stop bit, and eight data bits a byte. -/
theorem measure_subframe (bytes : List Byte) :
    μ (subframe bytes) + (bytes.map byteOnes).sum * bit0 =
      both + bytes.length * 8 * bit0 + (bytes.map byteOnes).sum * bit1 := by
  have hbytes : MeasuresAsBits μ bit0 bit1 (bytes.flatMap byteIntervals) (bytes.length * 8) (bytes.map byteOnes).sum :=
    .flatMap hμ (fun _ => .flatMap hμ (fun _ => measuresAsBits_bitSymbol hzero hone _) _) bytes
  rw [MeasuresAsBits] at hbytes
  rw [subframe, hμ, hμ]
  omega

/-- What it makes of a trace: two subframes with 216 data bits in all. -/
theorem measure_trace (f : Frame) : μ (trace f) + ones f * bit0 = 2 * both + 216 * bit0 + ones f * bit1 := by
  have hheader := measure_subframe hμ hboth hzero hone (f.toList.take 8)
  have hbody := measure_subframe hμ hboth hzero hone (f.toList.drop 8)
  rw [length_headerBytes] at hheader
  rw [length_bodyBytes] at hbody
  rw [trace, hμ, ones_eq]
  linarith

end Measure

theorem duration_append (t u : List Interval) : duration (t ++ u) = duration t + duration u := by
  simp [duration]

theorem duration_subframe (bytes : List Byte) :
    duration (subframe bytes) = 15630 + 6960 * bytes.length + 860 * (bytes.map byteOnes).sum := by
  have h := measure_subframe (both := 15630) (bit0 := 870) (bit1 := 1730) duration_append rfl rfl rfl bytes
  omega

theorem length_subframe (bytes : List Byte) : (subframe bytes).length = 4 + 16 * bytes.length := by
  have h := measure_subframe (both := 4) (bit0 := 2) (bit1 := 2) (fun _ _ => List.length_append) rfl rfl rfl bytes
  omega

theorem duration_trace (f : Frame) : duration (trace f) = 219180 + 860 * ones f := by
  have h := measure_trace (both := 15630) (bit0 := 870) (bit1 := 1730) duration_append rfl rfl rfl f
  omega

/-- How often an interval stands in a trace, from how often it stands in a start or stop bit and in a data bit. -/
theorem count_trace (p : Interval) {both bit0 bit1 : Nat} (hboth : startSymbol.count p + stopSymbol.count p = both)
    (hzero : (bitSymbol false).count p = bit0) (hone : (bitSymbol true).count p = bit1) (f : Frame) :
    (trace f).count p + ones f * bit0 = 2 * both + 216 * bit0 + ones f * bit1 :=
  measure_trace (μ := List.count p) (fun _ _ => List.count_append) hboth hzero hone f

theorem length_filter_trace (q : Interval → Bool)
    (hboth : (startSymbol.filter q).length + (stopSymbol.filter q).length = 2)
    (hbit : ∀ b, ((bitSymbol b).filter q).length = 1) (f : Frame) : ((trace f).filter q).length = 220 := by
  have h := measure_trace (μ := fun t => (t.filter q).length) (by simp) hboth (hbit false) (hbit true) f
  simpa using h

theorem duration_marks_trace (f : Frame) : duration ((trace f).filter fun p => p.1) = 100740 := by
  have h := measure_trace (μ := fun t => duration (t.filter fun p => p.1)) (both := 3930) (bit0 := 430) (bit1 := 430)
    (by simp [duration_append]) rfl rfl rfl f
  simpa using h

/-- Settles O43: each number is a measure of the trace or of a subframe. -/
theorem traceCountsAndDurations : Obligations.TraceCountsAndDurations := by
  intro f a b
  have hheader := length_headerBytes f
  have hbody := length_bodyBytes f
  have hstart := count_trace (true, 3500) (both := 1) (bit0 := 0) (bit1 := 0) rfl rfl rfl f
  have hmark := count_trace (true, 430) (both := 1) (bit0 := 1) (bit1 := 1) rfl rfl rfl f
  have hstartSpace := count_trace (false, 1700) (both := 1) (bit0 := 0) (bit1 := 0) rfl rfl rfl f
  have hzero := count_trace (false, 440) (both := 0) (bit0 := 1) (bit1 := 0) rfl rfl rfl f
  have hone := count_trace (false, 1300) (both := 0) (bit0 := 0) (bit1 := 1) rfl rfl rfl f
  have hstopSpace := count_trace (false, 10000) (both := 1) (bit0 := 0) (bit1 := 0) rfl rfl rfl f
  have hduration := duration_trace f
  refine ⟨rfl, length_trace f, (length_subframe _).trans (by omega), (length_subframe _).trans (by omega),
    length_filter_trace _ rfl (by decide) f, by omega, by omega, length_filter_trace _ rfl (by decide) f, by omega,
    by omega, by omega, by omega, (duration_subframe _).trans (by omega), (duration_subframe _).trans (by omega),
    hduration, by omega, by omega, duration_marks_trace f⟩

end Sys2Proof.Machine

/-!
PROOF of 60_exceptions.md's statement (O5). That a step answers, and what it does to the template, is said once for every
step in 00_scope.md's and 10_state.md's part.
-/

namespace Sys2Proof.Machine

/-- Settles O5: the block has no fault, and none of a step's four branches writes the template. -/
theorem everyStepGivesANextStateAndKeepsTheTemplate : Obligations.EveryStepGivesANextStateAndKeepsTheTemplate := by
  intro s
  obtain ⟨t, ht⟩ := step_next s
  obtain ⟨htemplate, -⟩ := step_frame ht
  exact ⟨t, ht, htemplate⟩

end Sys2Proof.Machine

/-!
PROOFS of 70_reset_and_hazards.md's statements (O46, O2). What the block still has to play is never longer than a whole
trace: the part of the trace before it always covers the longest interval the current phase can be in. So the end of a
transmission is near enough; then the reset tick.
-/

namespace Sys2Proof.Machine

/-! ### A ready block (R92, R134) -/

theorem duration_cons (p : Interval) (t : List Interval) : duration (p :: t) = p.2 + duration t := by
  simp [duration]

theorem duration_bitSymbol (b : Bool) : duration (bitSymbol b) = 430 + bitSpace b := rfl

theorem duration_le_of_suffix {t u : List Interval} (h : t <:+ u) : duration t ≤ duration u := by
  obtain ⟨played, rfl⟩ := h
  rw [duration_append]
  exact Nat.le_add_left _ _

theorem ones_le (f : Frame) : ones f ≤ 216 := by
  have h := count_trace (false, 440) (both := 0) (bit0 := 1) (bit1 := 0) rfl rfl rfl f
  omega

theorem duration_trace_le (f : Frame) : duration (trace f) ≤ 404940 := by
  have h := duration_trace f
  have := ones_le f
  omega

/-- Every bit stands in the trace after the header's start bit. -/
theorem duration_fromBit_le (f : Frame) (k : Fin 27) (i : Fin 8) :
    5200 + duration (bitSymbol (frameBit f k i) ++ afterBit f k i) ≤ duration (trace f) := by
  have hpos : 2 ≤ wirePosition k i := by
    unfold wirePosition
    split <;> omega
  have hsuffix := duration_le_of_suffix (List.drop_suffix_drop_left (trace f) hpos)
  have hstart : duration (trace f) = 5200 + duration ((trace f).drop 2) := duration_append startSymbol _
  rw [fromBit f k i] at hsuffix
  omega

/-- What follows a stop bit stands in the trace after the whole header subframe. -/
theorem duration_afterStop_le (f : Frame) (k : Fin 27) : 15630 + duration (afterStop f k) ≤ duration (trace f) := by
  have htrace : duration (trace f) = _ := duration_append (subframe (f.toList.take 8)) (subframe (f.toList.drop 8))
  have hheader := duration_subframe (f.toList.take 8)
  by_cases hk : k = hdrLast
  · rw [afterStop, if_pos hk]
    omega
  · rw [afterStop, if_neg hk, show duration [] = 0 from rfl]
    omega

/-- With the longest interval of its phase before it, what is to come still lasts no longer than a trace. -/
theorem duration_toCome_le (f : Frame) (k : Fin 27) (i : Fin 8) (ph : Phase) :
    phaseMax ph + duration (toCome f k i ph) ≤ duration (trace f) := by
  have hbit := duration_fromBit_le f k i
  rw [duration_append, duration_bitSymbol] at hbit
  have hstop := duration_afterStop_le f k
  cases ph with
  | idle => exact Nat.zero_le _
  | startMark =>
    rw [toCome, duration_cons, duration_append, duration_bitSymbol, phaseMax, tStartSpace]
    omega
  | startSpace =>
    rw [toCome, duration_append, duration_bitSymbol, phaseMax]
    omega
  | bitMark =>
    rw [toCome, duration_cons, phaseMax]
    omega
  | bitSpace =>
    rw [toCome, phaseMax]
    omega
  | stopMark =>
    rw [toCome, duration_cons, phaseMax, tStopSpace]
    omega
  | stopSpace =>
    rw [toCome, phaseMax]
    omega

theorem duration_pending_le {s : State} (h : s.cnt ≤ phaseMax s.ph) : duration (pending s) ≤ 404940 := by
  by_cases hi : s.ph = .idle
  · rw [pending_idle hi]
    exact Nat.zero_le _
  · have hcome := duration_toCome_le s.frame s.bi s.bt s.ph
    have htrace := duration_trace_le s.frame
    rw [pending_busy hi, duration_cons]
    omega

/-- Settles O46: the block is idle after what it has to play, which lasts no longer than the longest trace. -/
theorem blockBecomesReadyAgain : Obligations.BlockBecomesReadyAgain := by
  intro s hinv hr
  obtain ⟨hidle, -, hmax, -⟩ := hinv
  have hpos : CntPos s := fun hb => Nat.pos_of_ne_zero (mt hidle.2 hb)
  have hlater : ∀ b ∈ (stateAfter (duration (pending s)) s).rstIn, b = false := fun b hb =>
    hr b (List.mem_of_mem_drop (stateAfter_rstIn _ s ▸ hb))
  exact ⟨duration (pending s), duration_pending_le hmax, (cmdReady_iff _).2
    ⟨stateAfter_pending_ph hpos (noReset_of_all hr _), rst_of_noReset (noReset_of_all hlater 1)⟩⟩

/-! ### The reset tick (R120) -/

theorem cmdReady_of_rst {s : State} (hr : rst s = true) : cmdReady s = false := by simp [cmdReady, hr]

theorem accepted_of_not_ready {s : State} (h : cmdReady s = false) : accepted s = none := by simp [accepted, h]

theorem atReset_loadReset (s : State) : AtReset s.loadReset := ⟨rfl, rfl, rfl, rfl, rfl⟩

/-- Settles O2: the reset branch of the step, once for the tick and once for the tick after it. -/
theorem resetTickLoadsTheResetState : Obligations.ResetTickLoadsTheResetState := by
  intro s hr
  have hready := cmdReady_of_rst hr
  obtain ⟨hframe, hph, hbi, hbt, hcnt⟩ := atReset_loadReset s.nextTick
  exact ⟨hready, accepted_of_not_ready hready, _, step_reset hr, fun _ => rfl, rfl, hph, hbi, hbt, hcnt, rfl, rfl,
    rfl, rfl, rfl, rfl, fun ht => ⟨_, step_reset ht, hframe.symm, rfl, hph.symm, hbi.symm, hbt.symm, hcnt.symm⟩⟩

end Sys2Proof.Machine
